-- ==== Sys2Proof/Word.lean ====
section
/-! DEFINITION. The words of the HA102 frame decoder core: raw symbols, nibbles and decoded symbols
(spec 00_scope.md rules R9 and R12). -/

namespace Sys2Proof

/-- One raw symbol: an 8-bit character code (R12, R71). Also one byte of a CRC message (R164). -/
abbrev Byte := BitVec 8

/-- One nibble: "one hexadecimal digit (4 bits)" (R9). -/
abbrev Nib := BitVec 4

/-- One decoded symbol, the pair `(ok, nib)` of R12. `hex n` is `(1, n)`; `other` is the one pair with
`ok = 0`, whose nibble R12 fixes at 0. -/
inductive DecSymbol where
  /-- A hexadecimal character, `ok = 1`. -/
  | hex (n : Nib)
  /-- A non-hexadecimal character, `ok = 0` and `nib = 0`. -/
  | other
  deriving DecidableEq, Repr

/-- The `ok` bit of a decoded symbol (R12). -/
def DecSymbol.ok : DecSymbol → Bool
  | .hex _ => true
  | .other => false

/-- The `nib` part of a decoded symbol (R12). -/
def DecSymbol.nib : DecSymbol → Nib
  | .hex n => n
  | .other => 0#4

/-- `isNib(s, n)` of R12: `s.ok = 1` and `s.nib = n`. -/
def DecSymbol.isNib : DecSymbol → Nib → Bool
  | .hex m, n => m == n
  | .other, _ => false

/-- The five bits of a decoded symbol, `ok` above `nib` (R23: "a decoded symbol `(ok, nib)` of 5 bits"). -/
def DecSymbol.bits : DecSymbol → BitVec 5
  | .hex n => 1#1 ++ n
  | .other => 0#5

/-- A decoded symbol from five bits; with `ok = 0` the nibble is 0 whatever the low bits are (R12). -/
def DecSymbol.ofBits (b : BitVec 5) : DecSymbol :=
  if b.getLsbD 4 then .hex (b.extractLsb' 0 4) else .other

end Sys2Proof
end

