-- ==== Sys2Proof/Config.lean ====
section
/-! DEFINITION. What does not change while the block runs: the constants the document fixes (R6), the
parameters the spec fixes (R8), the open parameters of an instance (R7), and the free values, which
stand for everything the spec calls unspecified (93_implementation_defined.md U1 to U4). -/

namespace Sys2Proof

/-! ## Constants of R6 and R8 -/

/-- `SYNCWORD`, nibbles 3, 4, 7, 5 (R6). -/
def Config.syncword : BitVec 16 := 0x3475

/-- `FRAME_NIBBLES`, the parsed length of the adjusted string (R6). -/
def Config.frameNibbles : Nat := 41

/-- `CRC_LO`, first nibble of the CRC span (R6). -/
def Config.crcLo : Nat := 8

/-- `CRC_HI`, the nibble after the CRC span (R6). -/
def Config.crcHi : Nat := 36

/-- `CRC_POLY` (R6, R160). -/
def Config.crcPoly : BitVec 16 := 0x1021

/-- `CRC_INIT` (R6, R160). -/
def Config.crcInit : BitVec 16 := 0x1D0F

/-- `SCALE = 1/100`: one unit is this many counts (R6, R150). -/
def Config.scale : Nat := 100

/-- `LEAD_DROP`, the lead-in symbols RESYNC drops (R6, R122). -/
def Config.leadDrop : Nat := 4

/-- `FILL_A`, the filler nibble 5 (R6). -/
def Config.fillA : Nib := 5#4

/-- `FILL_B`, the filler nibble 10 (R6). -/
def Config.fillB : Nib := 10#4

/-- `FILLER_MIN_RUN` (R8, decision D6). -/
def Config.fillerMinRun : Nat := 2

/-- `BADHEX_WINDOW = [0, 41)`: its upper end (R8, decision D20). -/
def Config.badHexWindow : Nat := 41

/-! ## The open parameters of R7 -/

/-- The parameters of one instance of the block (R7). They never change; State carries them so that
every claim about a state is a claim about every instance (log entry 2). -/
structure Params where
  /-- `LMAX - 41`. R7 asks for `LMAX >= 41`, so every value of this field is a legal instance. -/
  lmaxOver : Nat
  /-- `HAS_RESYNC`: whether the optional RESYNC unit is present. -/
  hasResync : Bool
  /-- `LAT`: `some n` is a fixed delay, `none` is "unbounded". The unit is one step (log entry 4). -/
  lat : Option Nat
  deriving DecidableEq, Repr

/-- `LMAX`, the largest raw string length the input buffer holds (R7). -/
def Params.lmax (p : Params) : Nat := Config.frameNibbles + p.lmaxOver

/-! ## Free values -/

/-- FREE VALUE (log entry 6): the bits of an unspecified register. `draw` is the count State holds,
`slot` tells the registers of one draw apart. No body: nothing can be proved of its value. -/
opaque Config.freeBits (w : Nat) (draw slot : Nat) : BitVec w

/-- FREE VALUE (log entry 6): an unspecified number (a length, a delay). -/
opaque Config.freeNat (draw slot : Nat) : Nat

end Sys2Proof
end

