-- ==== Sys2Proof/Syntax.lean ====
section
/-! DEFINITION. The operations of the block: one constructor for each row of spec/opcode_table.json, in
the table's order. The block has no instruction word that selects among them (R14); an operation's
operands are those its rule names, and an operation whose rule reads a port or a buffer
(10_state.md rule R33) has no operand of its own. -/

namespace Sys2Proof

/-- The 36 named operations of the block (R80). -/
inductive Instr where
  /-- `HEXDEC`: one raw symbol to a decoded symbol (R100). -/
  | hexdec (c : Byte)
  /-- `HEXDECS`: the raw string on the port to decoded symbols (R101). -/
  | hexdecs
  /-- `HEXINT`: decoded nibbles to an unsigned integer (R103). -/
  | hexint (x : List DecSymbol)
  /-- `MATCHSYNC`: does the sequence start with 3, 4, 7, 5 (R111). -/
  | matchsync (x : List DecSymbol)
  /-- `FILL5`: does the sequence start with 5, 5 (R112). -/
  | fill5 (x : List DecSymbol)
  /-- `FILLA`: does the sequence start with 10, 10 (R113). -/
  | filla (x : List DecSymbol)
  /-- `STRIP5`: remove all leading nibbles 5 (R115). -/
  | strip5 (x : List DecSymbol)
  /-- `SHL1`: shift a sequence left one bit, width kept (R116). -/
  | shl1 (x : List DecSymbol)
  /-- `SHR1`: shift a sequence right one bit, width kept (R117). -/
  | shr1 (x : List DecSymbol)
  /-- `RESYNC`: raw string to adjusted string or nothing (R120). -/
  | resync
  /-- `SEL.SYNCWORD` (R131). -/
  | selSyncword
  /-- `SEL.RECEIVER_ID` (R132). -/
  | selReceiverId
  /-- `SEL.SENDER_ID` (R133). -/
  | selSenderId
  /-- `SEL.U1` (R134). -/
  | selU1
  /-- `SEL.U2` (R135). -/
  | selU2
  /-- `SEL.U3` (R136). -/
  | selU3
  /-- `SEL.TOTAL_AH` (R137). -/
  | selTotalAh
  /-- `SEL.U4` (R138). -/
  | selU4
  /-- `SEL.CURRENT_A` (R139). -/
  | selCurrentA
  /-- `SEL.BATTERY` (R140). -/
  | selBattery
  /-- `SEL.U5` (R141). -/
  | selU5
  /-- `SEL.CRC` (R142). -/
  | selCrc
  /-- `SEL.U6` (R143). -/
  | selU6
  /-- `SEL.SPAN` (R144). -/
  | selSpan
  /-- `SCALE24`: integer to whole part and hundredths (R151). -/
  | scale24 (r : BitVec 24)
  /-- `SCALE16` (R152). -/
  | scale16 (r : BitVec 16)
  /-- `CRC.INIT` (R161). -/
  | crcInit
  /-- `CRC.BIT` (R162). -/
  | crcBit (d : BitVec 1)
  /-- `CRC.NIB` (R163). -/
  | crcNib (n : Nib)
  /-- `CRC.BYTE` (R164). -/
  | crcByte (b : Byte)
  /-- `CRC.SPAN` (R165). -/
  | crcSpan
  /-- `CLASSIFY`: computed checksum `a`, received checksum `r` (R180). -/
  | classify (a r : BitVec 16)
  /-- `DECODE`: adjusted string to record or failure (R190). -/
  | decode
  /-- `FRAME`: raw string to record or failure (R194). -/
  | frame
  /-- `START`: pins `(RST, START) = 01` (R196). -/
  | start
  /-- `RESET`: pins `(RST, START) = 1s`; `s` is the START pin beside RST (R199, R241). -/
  | reset (s : BitVec 1)
  deriving DecidableEq, Repr

end Sys2Proof
end

