-- ==== Sys2Proof/WellFormed.lean ====
section
/-! DEFINITION. Which operands an operation has in the block: `HEXINT` takes 1, 2, 4 or 6 symbols (R103);
`SHL1` and `SHR1` take at least one (R116, R117). Every other operand is as its type says. That a symbol
is non-hexadecimal is a value and not a matter of form (R100). -/

namespace Sys2Proof

/-- The operand shapes the rules admit. -/
def Instr.wellFormed : Instr → Bool
  | .hexdec _ => true
  | .hexdecs => true
  | .hexint x => x.length == 1 || x.length == 2 || x.length == 4 || x.length == 6
  | .matchsync _ => true
  | .fill5 _ => true
  | .filla _ => true
  | .strip5 _ => true
  | .shl1 x => 1 ≤ x.length
  | .shr1 x => 1 ≤ x.length
  | .resync => true
  | .selSyncword => true
  | .selReceiverId => true
  | .selSenderId => true
  | .selU1 => true
  | .selU2 => true
  | .selU3 => true
  | .selTotalAh => true
  | .selU4 => true
  | .selCurrentA => true
  | .selBattery => true
  | .selU5 => true
  | .selCrc => true
  | .selU6 => true
  | .selSpan => true
  | .scale24 _ => true
  | .scale16 _ => true
  | .crcInit => true
  | .crcBit _ => true
  | .crcNib _ => true
  | .crcByte _ => true
  | .crcSpan => true
  | .classify _ _ => true
  | .decode => true
  | .frame => true
  | .start => true
  | .reset _ => true

end Sys2Proof
end

