-- ==== Sys2Proof/Decode.lean ====
section
/-! DEFINITION. Reading an operation from bits, and writing one as bits.

The block has no instruction word and nothing in a row's bits says which row it is (R14): `0x55` is an
operand of `HEXDEC`, of `CRC.BYTE` and the pattern of `FILL5`. What the table gives a row is the pattern of
its OPERAND. A request of the model is therefore one byte that names the row (its place in
spec/opcode_table.json, from 0: the model's own, DESIGN CHOICE, log entry 1) and then the operand, its bits
numbered as the table numbers them, bits 7 to 0 in the first byte. A symbol of a sequence operand is one
byte `000` `ok` `nib` (R23: five bits), the first symbol first. `START` and `RESET` carry the pin pattern
`(RST, START)` of their rows in one byte. -/

namespace Sys2Proof

/-- Why bytes are no request. Every case is safe: the model gives such bytes no meaning. -/
inductive Reject where
  /-- No byte at all. -/
  | empty
  /-- The first byte names no row of the table. -/
  | unknownOperation (b : Byte)
  /-- The operand is shorter than the row's. -/
  | operandMissing
  /-- Bytes follow the operand. -/
  | trailingBytes
  /-- A bit above the operand's width is set. -/
  | bitsAboveOperand
  /-- A byte of a sequence is no decoded symbol: bits 7 to 5 set, or `ok = 0` with a nonzero nibble (R12). -/
  | badSymbol
  /-- The sequence has a length the rule does not admit (R103, R116, R117). -/
  | operandShape
  /-- The pins do not show the row's pattern (R196, R199). -/
  | pinsMismatch
  deriving DecidableEq, Repr

/-- The row of spec/opcode_table.json an operation stands for, counted from 0. -/
def Instr.row : Instr → Byte
  | .hexdec _ => 0
  | .hexdecs => 1
  | .hexint _ => 2
  | .matchsync _ => 3
  | .fill5 _ => 4
  | .filla _ => 5
  | .strip5 _ => 6
  | .shl1 _ => 7
  | .shr1 _ => 8
  | .resync => 9
  | .selSyncword => 10
  | .selReceiverId => 11
  | .selSenderId => 12
  | .selU1 => 13
  | .selU2 => 14
  | .selU3 => 15
  | .selTotalAh => 16
  | .selU4 => 17
  | .selCurrentA => 18
  | .selBattery => 19
  | .selU5 => 20
  | .selCrc => 21
  | .selU6 => 22
  | .selSpan => 23
  | .scale24 _ => 24
  | .scale16 _ => 25
  | .crcInit => 26
  | .crcBit _ => 27
  | .crcNib _ => 28
  | .crcByte _ => 29
  | .crcSpan => 30
  | .classify _ _ => 31
  | .decode => 32
  | .frame => 33
  | .start => 34
  | .reset _ => 35

/-! ## Reading operands -/

/-- A decoded symbol from its byte `000` `ok` `nib`; no other byte is one (R12, R23). -/
def symbolOfByte (b : Byte) : Option DecSymbol :=
  if (DecSymbol.ofBits (b.extractLsb' 0 5)).bits.setWidth 8 = b then
    some (DecSymbol.ofBits (b.extractLsb' 0 5))
  else none

/-- A sequence of decoded symbols, one a byte. -/
def symbolsOfBytes : List Byte → Option (List DecSymbol)
  | [] => some []
  | b :: bs =>
    match symbolOfByte b, symbolsOfBytes bs with
    | some y, some ys => some (y :: ys)
    | _, _ => none

/-- A row without an operand. -/
def readNothing (i : Instr) : List Byte → Except Reject Instr
  | [] => .ok i
  | _ :: _ => .error .trailingBytes

/-- A row with an operand of `w <= 8` bits, in the low bits of one byte. -/
def readBits (w : Nat) (f : BitVec w → Instr) : List Byte → Except Reject Instr
  | [] => .error .operandMissing
  | [b] => if b.toNat < 2 ^ w then .ok (f (b.setWidth w)) else .error .bitsAboveOperand
  | _ :: _ :: _ => .error .trailingBytes

/-- A row with a 16-bit operand, low byte first. -/
def readWord16 (f : BitVec 16 → Instr) : List Byte → Except Reject Instr
  | [b0, b1] => .ok (f (b1 ++ b0))
  | _ :: _ :: _ :: _ => .error .trailingBytes
  | _ => .error .operandMissing

/-- A row with a 24-bit operand, low byte first. -/
def readWord24 (f : BitVec 24 → Instr) : List Byte → Except Reject Instr
  | [b0, b1, b2] => .ok (f (b2 ++ b1 ++ b0))
  | _ :: _ :: _ :: _ :: _ => .error .trailingBytes
  | _ => .error .operandMissing

/-- `CLASSIFY`'s 32 bits, `a` in bits 31 to 16 and `r` in bits 15 to 0, low byte first. -/
def readClassify : List Byte → Except Reject Instr
  | [r0, r1, a0, a1] => .ok (.classify (a1 ++ a0) (r1 ++ r0))
  | _ :: _ :: _ :: _ :: _ :: _ => .error .trailingBytes
  | _ => .error .operandMissing

/-- A row with a sequence operand, its shape checked. -/
def readSymbols (f : List DecSymbol → Instr) (bs : List Byte) : Except Reject Instr :=
  match symbolsOfBytes bs with
  | some x => if (f x).wellFormed then .ok (f x) else .error .operandShape
  | none => .error .badSymbol

/-- The pins, bit 1 `RST` and bit 0 `START`: `01` is START, `1s` is RESET, whatever `s` is (the table's
rows START and RESET; "RST wins over START", R241); `00` asks for nothing. -/
def decodePins (p : BitVec 2) : Option Instr :=
  if p.getLsbD 1 then some (.reset (p.extractLsb' 0 1))
  else if p.getLsbD 0 then some .start
  else none

/-- `START`'s row: match `0x1`, mask `0x3` on the pins. -/
def readStart : List Byte → Except Reject Instr
  | [] => .error .operandMissing
  | [b] =>
    if b.toNat < 4 then
      if b &&& 0x3 = 0x1 then .ok .start else .error .pinsMismatch
    else .error .bitsAboveOperand
  | _ :: _ :: _ => .error .trailingBytes

/-- `RESET`'s row: match `0x2`, mask `0x2` on the pins; the other pin is kept. -/
def readReset : List Byte → Except Reject Instr
  | [] => .error .operandMissing
  | [b] =>
    if b.toNat < 4 then
      if b &&& 0x2 = 0x2 then .ok (.reset (b.extractLsb' 0 1)) else .error .pinsMismatch
    else .error .bitsAboveOperand
  | _ :: _ :: _ => .error .trailingBytes

/-! ## The decoder -/

/-- The operation a request stands for; every other string of bytes is refused by name. -/
def decode : List Byte → Except Reject Instr
  | [] => .error .empty
  | b :: ops =>
    match b.toNat with
    | 0 => readBits 8 .hexdec ops
    | 1 => readNothing .hexdecs ops
    | 2 => readSymbols .hexint ops
    | 3 => readSymbols .matchsync ops
    | 4 => readSymbols .fill5 ops
    | 5 => readSymbols .filla ops
    | 6 => readSymbols .strip5 ops
    | 7 => readSymbols .shl1 ops
    | 8 => readSymbols .shr1 ops
    | 9 => readNothing .resync ops
    | 10 => readNothing .selSyncword ops
    | 11 => readNothing .selReceiverId ops
    | 12 => readNothing .selSenderId ops
    | 13 => readNothing .selU1 ops
    | 14 => readNothing .selU2 ops
    | 15 => readNothing .selU3 ops
    | 16 => readNothing .selTotalAh ops
    | 17 => readNothing .selU4 ops
    | 18 => readNothing .selCurrentA ops
    | 19 => readNothing .selBattery ops
    | 20 => readNothing .selU5 ops
    | 21 => readNothing .selCrc ops
    | 22 => readNothing .selU6 ops
    | 23 => readNothing .selSpan ops
    | 24 => readWord24 .scale24 ops
    | 25 => readWord16 .scale16 ops
    | 26 => readNothing .crcInit ops
    | 27 => readBits 1 .crcBit ops
    | 28 => readBits 4 .crcNib ops
    | 29 => readBits 8 .crcByte ops
    | 30 => readNothing .crcSpan ops
    | 31 => readClassify ops
    | 32 => readNothing .decode ops
    | 33 => readNothing .frame ops
    | 34 => readStart ops
    | 35 => readReset ops
    | _ => .error (.unknownOperation b)

/-! ## The encoder -/

/-- The byte of a decoded symbol. -/
def byteOfSymbol (y : DecSymbol) : Byte := y.bits.setWidth 8

/-- The low `n` bytes of a word, low byte first. -/
def bytesOfWord {w : Nat} (n : Nat) (v : BitVec w) : List Byte :=
  (List.range n).map fun k => v.extractLsb' (8 * k) 8

/-- The operand bytes of an operation. -/
def Instr.operand : Instr → List Byte
  | .hexdec c => [c]
  | .hexdecs => []
  | .hexint x => x.map byteOfSymbol
  | .matchsync x => x.map byteOfSymbol
  | .fill5 x => x.map byteOfSymbol
  | .filla x => x.map byteOfSymbol
  | .strip5 x => x.map byteOfSymbol
  | .shl1 x => x.map byteOfSymbol
  | .shr1 x => x.map byteOfSymbol
  | .resync => []
  | .selSyncword => []
  | .selReceiverId => []
  | .selSenderId => []
  | .selU1 => []
  | .selU2 => []
  | .selU3 => []
  | .selTotalAh => []
  | .selU4 => []
  | .selCurrentA => []
  | .selBattery => []
  | .selU5 => []
  | .selCrc => []
  | .selU6 => []
  | .selSpan => []
  | .scale24 r => bytesOfWord 3 r
  | .scale16 r => bytesOfWord 2 r
  | .crcInit => []
  | .crcBit d => [d.setWidth 8]
  | .crcNib n => [n.setWidth 8]
  | .crcByte b => [b]
  | .crcSpan => []
  | .classify a r => bytesOfWord 4 (a ++ r)
  | .decode => []
  | .frame => []
  | .start => [0x01]
  | .reset s => [(1#1 ++ s).setWidth 8]

/-- The request that stands for an operation: its row, then its operand. -/
def encode (i : Instr) : List Byte := i.row :: i.operand

/-! ## The table's own words -/

/-- The request a bare word of the table stands for, `nbits` wide in whole bytes. The rows with fixed bits
come first, each at its own pattern: `MATCHSYNC` `0x3475`, `FILL5` `0x55`, `FILLA` `0xAA`, `STRIP5` `0x5`,
`START` `01`, `RESET` `1s`, and the 164-bit `F41` pattern of `DECODE` (its literal 16 bits `0x3475`), which
`FRAME` shares. A word of 8, 16, 24 or 32 bits that shows none of them is read by the first row whose operand
has that width; a 164-bit word without the syncword stands for no one of the twelve selects (log entry 1). The pattern of a matcher is the operand it matches. -/
def tableRequest (nbits w : Nat) : Option (List Byte) :=
  if 2 ^ nbits ≤ w then none
  else if nbits = 8 then
    if w = 0x55 then some (encode (.fill5 [.hex 5#4, .hex 5#4]))
    else if w = 0xAA then some (encode (.filla [.hex 10#4, .hex 10#4]))
    else if w = 0x05 then some (encode (.strip5 [.hex 5#4]))
    else if w = 0x01 then some [34, 0x01]
    else if w = 0x02 ∨ w = 0x03 then some [35, BitVec.ofNat 8 w]
    else some [0, BitVec.ofNat 8 w]
  else if nbits = 16 then
    if w = 0x3475 then some (encode (.matchsync [.hex 3#4, .hex 4#4, .hex 7#4, .hex 5#4]))
    else some (25 :: bytesOfWord 2 (BitVec.ofNat 16 w))
  else if nbits = 24 then some (24 :: bytesOfWord 3 (BitVec.ofNat 24 w))
  else if nbits = 32 then some (31 :: bytesOfWord 4 (BitVec.ofNat 32 w))
  else if nbits = 168 then
    if w / 2 ^ 148 = 0x3475 then some [32] else none
  else none

/-- FIXED NAME. The operation the decoder reads from a word of spec/opcode_table.json. -/
def decodeTableWord (nbits w : Nat) : Option Instr :=
  match tableRequest nbits w with
  | some bs => (decode bs).toOption
  | none => none

end Sys2Proof
end

