-- ==== Sys2Proof/Machine/State.lean ====
section
/-! DEFINITION. The state of the block: ports, buffers, record registers, CRC register and flags
(10_state.md rules R20 to R27), the transaction in progress (R196, R244, R245), and four fields of the
model's own (`params`, `bench`, `result`, `draws`; log entries 1, 2, 3 and 6). -/

namespace Sys2Proof.Machine

/-- `STATUS[1:0]`, the outcome of the last finished transaction (R25, R76). -/
inductive Status where
  | ok
  | resyncFailed
  | tooShort
  | badHex
  deriving DecidableEq, Repr

/-- `CRC_RESULT[1:0]`, the class of the record (R25, R77). -/
inductive CrcClass where
  | invalid
  | valid
  | shiftedLeft
  | shiftedRight
  deriving DecidableEq, Repr

/-- The three failures; "no other failure exists" (R210). -/
inductive Failure where
  | resyncFailed
  | tooShort
  | badHex
  deriving DecidableEq, Repr

/-- The record registers of R22, but for the hardwired `SYNCWORD`. -/
structure Record where
  receiverId : BitVec 16
  senderId : BitVec 16
  u1 : BitVec 8
  u2 : BitVec 8
  u3 : BitVec 8
  totalAhRaw : BitVec 24
  totalAhInt : BitVec 18
  totalAhFrac : BitVec 7
  u4 : BitVec 16
  currentARaw : BitVec 16
  currentAInt : BitVec 10
  currentAFrac : BitVec 7
  battery : BitVec 8
  u5 : BitVec 8
  crcRx : BitVec 16
  u6 : BitVec 4
  deriving DecidableEq, Repr

/-- The two buffers of R50, addressed by symbol index from 0. Each list is the whole buffer,
`LMAX` elements, element `i` at index `i` (log entry 5). -/
structure Memory where
  /-- `RAW[0..LMAX-1]`, driven by the host (R21). -/
  raw : List Byte
  /-- `RAWLEN`, driven by the host (R21). -/
  rawLen : Nat
  /-- `ADJ[0..LMAX-1]` (R23). -/
  adj : List DecSymbol
  /-- `ADJLEN` (R23). -/
  adjLen : Nat
  deriving DecidableEq, Repr

/-- The one canonical form of the buffers of an instance: both hold `LMAX` elements, both lengths are at
most `LMAX` (R21, R23). Every element is listed, so equal buffers are equal lists. -/
def Memory.wf (lmax : Nat) (m : Memory) : Bool :=
  m.raw.length == lmax && decide (m.rawLen ≤ lmax) && m.adj.length == lmax && decide (m.adjLen ≤ lmax)

/-- A transaction in progress, between its START and its DONE (R196, R244). -/
structure Window where
  /-- `RAW[0..RAWLEN)` as sampled at START (R20: "sampled at START"). -/
  sampled : List Byte
  /-- How many more steps pass before the step that sets DONE. -/
  left : Nat
  deriving DecidableEq, Repr

/-- What the last operation returned (MODEL's own, log entry 3). R33 says of most operations that they
write "nothing (they return values)"; this is where a returned value is seen. -/
inductive OpResult where
  /-- The operation returns no value. -/
  | none
  /-- A decoded symbol: `HEXDEC`. -/
  | symbol (y : DecSymbol)
  /-- A sequence of decoded symbols: `HEXDECS`, `STRIP5`, `SHL1`, `SHR1`. -/
  | symbols (x : List DecSymbol)
  /-- An unsigned integer of `w` bits: `HEXINT` and the field selects. -/
  | bits (w : Nat) (v : BitVec w)
  /-- One bit: `MATCHSYNC`, `FILL5`, `FILLA`. -/
  | flag (b : Bool)
  /-- A sequence or nothing: `RESYNC`. -/
  | adjusted (x : Option (List DecSymbol))
  /-- The nibbles of the CRC span, in order: `SEL.SPAN`. -/
  | nibbles (x : List Nib)
  /-- Whole part and hundredths: `SCALE24`. -/
  | scaled24 (q : BitVec 18) (f : BitVec 7)
  /-- Whole part and hundredths: `SCALE16`. -/
  | scaled16 (q : BitVec 10) (f : BitVec 7)
  /-- A class: `CLASSIFY`. -/
  | cls (c : CrcClass)
  /-- A record was produced (`ok`) or the failure raised: `DECODE`, `FRAME`, a finished `START`. -/
  | outcome (o : Status)
  deriving DecidableEq, Repr

/-- The state of the block. -/
structure State where
  /-- The instance's parameters (R7; fixed, log entry 2). -/
  params : Params
  /-- `RST` as the host drives it for the coming step (R21). -/
  rst : Bool
  /-- `START` as the host drives it for the coming step (R21). -/
  start : Bool
  /-- `RAW`, `RAWLEN`, `ADJ`, `ADJLEN` (R21, R23). -/
  mem : Memory
  /-- The record registers (R22). -/
  record : Record
  /-- `CRC`, the CRC register (R27). -/
  crc : BitVec 16
  /-- `DONE` (R25). -/
  done : Bool
  /-- `STATUS[1:0]` (R25). -/
  status : Status
  /-- `CRC_RESULT[1:0]` (R25). -/
  crcResult : CrcClass
  /-- The transaction in progress, if any (R244, R245; log entry 4). -/
  window : Option Window
  /-- MODEL's own (log entry 1): the request of a single operation, as bytes; empty when none waits. -/
  bench : List Byte
  /-- MODEL's own (log entry 3): what the last operation returned. -/
  result : OpResult
  /-- MODEL's own (log entry 6): how many draws of free values have been made. -/
  draws : Nat
  deriving DecidableEq, Repr

/-- The faults of the block: none. A bad input ends in one of the three failures, which are values of
`STATUS`, and no input makes the block "fault in another way" (R219). No step of the model raises one (log entry 16). -/
inductive Fault
  deriving DecidableEq, Repr

/-- Why the model gives a step no meaning. Every case is safe: nothing can be proved of a next state. -/
inductive Refusal where
  /-- Raised by an arm of `exec` for an operation without a meaning; no arm raises it now. Safe. -/
  | notModelled (mnemonic : String)
  /-- Raised by HEXDECS, RESYNC, FRAME and START when the port holds no string of at most `LMAX` symbols:
  "A string longer than `LMAX` cannot be presented" (R21; U7: refuse; log entry 14). Safe. -/
  | rawNotPresentable
  /-- Raised by START while a transaction is in progress (R245: "A model should refuse it"; U6; log entry 17). Safe. -/
  | startDuringTransaction
  /-- Raised by the step that finds `RAW[0..RAWLEN)` or `RAWLEN` changed between START and DONE
  (R244: "A model should refuse to give such a transaction a meaning"; U5; log entry 17). Safe. -/
  | inputChanged
  /-- Raised by the operations of the RESYNC unit and by FRAME in an instance built without it
  (R7, R198; log entry 10): the unit is not there, and the spec gives it no effect there. Safe. -/
  | resyncAbsent
  /-- Raised by HEXINT, SHL1 and SHR1 on an operand of a length their rules do not admit
  (R103, R116, R117; log entry 12); the decoder rejects such a request already. Safe. -/
  | operandShape
  /-- Raised by the step when the bench holds bytes that are no request (log entry 1). Safe. -/
  | badRequest (r : Reject)
  deriving DecidableEq, Repr

/-- What a meaning answers. -/
abbrev Out := Host.Outcome State Fault Refusal

/-- A record of zeros: the reset contents the model names (log entry 7). -/
def Record.zero : Record :=
  { receiverId := 0, senderId := 0, u1 := 0, u2 := 0, u3 := 0, totalAhRaw := 0, totalAhInt := 0,
    totalAhFrac := 0, u4 := 0, currentARaw := 0, currentAInt := 0, currentAFrac := 0, battery := 0,
    u5 := 0, crcRx := 0, u6 := 0 }

/-- The instance that `State.reset` shows: `LMAX = 64`, RESYNC present, `LAT = 0` (log entry 2). -/
def resetParams : Params := { lmaxOver := 23, hasResync := true, lat := some 0 }

/-- FIXED NAME. The block right after reset (R32, R240): `DONE = 0`, `STATUS = 0`, `CRC = 0x1D0F`. The
record registers, `CRC_RESULT`, `ADJ` and `ADJLEN`, which the spec leaves unspecified, hold the values of
log entry 7; the input ports, which the host drives, show an empty string and no request (log entry 8). -/
def State.reset : State :=
  { params := resetParams
    rst := false
    start := false
    mem :=
      { raw := List.replicate resetParams.lmax 0
        rawLen := 0
        adj := List.replicate resetParams.lmax .other
        adjLen := 0 }
    record := Record.zero
    crc := Config.crcInit
    done := false
    status := .ok
    crcResult := .invalid
    window := none
    bench := []
    result := .none
    draws := 0 }

end Sys2Proof.Machine
end

