-- ==== Sys2Proof/Machine/Flags.lean ====
section
/-! DEFINITION. The flags: the codes of `STATUS` and `CRC_RESULT` (30_encoding.md rules R76 and R77), the
class of a pair of checksums (45_classify.md rule R180), and the derived output `REC_VALID` (R26). -/

namespace Sys2Proof.Machine

/-- The code of `STATUS[1:0]` (R76). -/
def Status.code : Status → BitVec 2
  | .ok => 0b00
  | .resyncFailed => 0b01
  | .tooShort => 0b10
  | .badHex => 0b11

/-- The status a 2-bit code names (R76; all four codes are used, R79). -/
def Status.ofCode (c : BitVec 2) : Status :=
  if c = 0b00 then .ok else if c = 0b01 then .resyncFailed else if c = 0b10 then .tooShort else .badHex

/-- The code of `CRC_RESULT[1:0]` (R77). -/
def CrcClass.code : CrcClass → BitVec 2
  | .invalid => 0b00
  | .valid => 0b01
  | .shiftedLeft => 0b10
  | .shiftedRight => 0b11

/-- The class a 2-bit code names (R77). -/
def CrcClass.ofCode (c : BitVec 2) : CrcClass :=
  if c = 0b00 then .invalid else if c = 0b01 then .valid
  else if c = 0b10 then .shiftedLeft else .shiftedRight

/-- The status that reports a failure (R211). -/
def Failure.status : Failure → Status
  | .resyncFailed => .resyncFailed
  | .tooShort => .tooShort
  | .badHex => .badHex

/-- `CLASSIFY(A, R)` of R180, the arms in its order. The left shift is compared at 17 bits (R181). -/
def classify (a r : BitVec 16) : CrcClass :=
  if a = r then .valid
  else if a.setWidth 17 = r ++ 0#1 then .shiftedLeft
  else if a = 0#1 ++ r.extractLsb' 1 15 then .shiftedRight
  else .invalid

/-- `REC_VALID = DONE & (STATUS == 0)` (R26). -/
def State.recValid (s : State) : Bool := s.done && s.status == .ok

/-- `is_search(rec)`: a named reading of the record; the block does not test it (R29). -/
def Record.isSearch (r : Record) : Bool := r.senderId == 0xFFFF

end Sys2Proof.Machine
end

