-- ==== Sys2Proof/Machine/Operands.lean ====
section
/-! DEFINITION. Every operand form of the block: the symbol decoder (40_hexdec.md), sequences and their
vector view (R11, R114), and the one addressing mode, a constant slice of the frame window
(42_fieldmux.md rule R130). -/

namespace Sys2Proof.Machine

/-- `HEXDEC` of R100 (its character codes: log entry 15). -/
def hexdec (c : Byte) : DecSymbol :=
  if 0x30#8 ≤ c ∧ c ≤ 0x39#8 then .hex (c.extractLsb' 0 4)
  else if 0x41#8 ≤ c ∧ c ≤ 0x46#8 then .hex (c.extractLsb' 0 4 + 9)
  else if 0x61#8 ≤ c ∧ c ≤ 0x66#8 then .hex (c.extractLsb' 0 4 + 9)
  else .other

/-- `HEXDECS` of R101. -/
def hexdecs (raw : List Byte) : List DecSymbol := raw.map hexdec

/-- The value of `HEXINT` (R103): the nibbles in base 16, the first most significant. -/
def hexNat (x : List DecSymbol) : Nat := x.foldl (fun v y => 16 * v + y.nib.toNat) 0

/-- `HEXINT` of R103: the `4n`-bit unsigned integer of `n` symbols. -/
def hexInt (x : List DecSymbol) : BitVec (4 * x.length) := BitVec.ofNat (4 * x.length) (hexNat x)

/-- `X[a..a+n)` of R11. -/
def slice {α : Type} (x : List α) (a n : Nat) : List α := (x.drop a).take n

/-- `MemRead(a, n)` of R13 and R104: `HEXINT` of `n` symbols from offset `a`. -/
def memRead (adj : List DecSymbol) (a n : Nat) : BitVec (4 * n) :=
  BitVec.ofNat (4 * n) (hexNat (slice adj a n))

/-- The frame vector `FV[163:0]` of R55. -/
def frameVector (adj : List DecSymbol) : BitVec 164 := memRead adj 0 41

/-- All symbols of a sequence have `ok = 1`. -/
def allOk (x : List DecSymbol) : Bool := x.all DecSymbol.ok

/-- The preconditions of every select (R130): at least 41 symbols, the first 41 of them hexadecimal. -/
def windowReady (adj : List DecSymbol) : Bool :=
  decide (Config.frameNibbles ≤ adj.length) && allOk (adj.take Config.badHexWindow)

/-- The nibbles of the CRC span `ADJ[8..36)`, in order (R144). -/
def spanNibbles (adj : List DecSymbol) : List Nib :=
  (slice adj Config.crcLo (Config.crcHi - Config.crcLo)).map DecSymbol.nib

/-- The precondition of `CRC.SPAN` (R165): the 28 symbols of the span are there and hexadecimal. -/
def spanReady (adj : List DecSymbol) : Bool :=
  decide (Config.crcHi ≤ adj.length) && allOk (slice adj Config.crcLo (Config.crcHi - Config.crcLo))

/-- `VEC(X)` of R114, the `4N`-bit vector of a sequence. -/
def vec (x : List DecSymbol) : BitVec (4 * x.length) := hexInt x

/-- `NIBS(v, N)` of R114: symbol `i` is `(1, v[4N-1-4i : 4N-4-4i])`. -/
def nibs (n : Nat) (v : BitVec (4 * n)) : List DecSymbol :=
  (List.range n).map fun i => .hex (v.extractLsb' (4 * (n - 1 - i)) 4)

end Sys2Proof.Machine
end

