-- ==== Sys2Proof/Machine/Ops.lean ====
section
/-! DEFINITION. The shared operations over the state: reading the buffers, writing the adjusted buffer,
making registers unspecified, and ending a transaction with a failure (60_exceptions.md rule R216), which
stands where another machine takes an exception. There is no return from one (R217). -/

namespace Sys2Proof.Machine

/-! ## Reading -/

/-- The raw string `RAW[0..RAWLEN)`; elements at `RAWLEN` and above are ignored (R21). -/
def State.rawString (s : State) : List Byte := s.mem.raw.take s.mem.rawLen

/-- The adjusted string `ADJ[0..ADJLEN)` (R23). -/
def State.adjusted (s : State) : List DecSymbol := s.mem.adj.take s.mem.adjLen

/-- The port holds a string of at most `LMAX` symbols (R21). -/
def State.presentable (s : State) : Bool :=
  s.mem.raw.length == s.params.lmax && decide (s.mem.rawLen ≤ s.params.lmax)

/-- `SYNCWORD`, hardwired and "not a flip-flop" (R22). -/
def State.syncword (_ : State) : BitVec 16 := Config.syncword

/-! ## Returned values -/

/-- An operation that writes nothing and returns a value (R33). -/
def State.returns (s : State) (r : OpResult) : State := { s with result := r }

/-! ## Unspecified registers (free values, log entry 6) -/

/-- A record no rule gives a value: every register but `SYNCWORD` is unspecified (R28; U1, U4). -/
def freeRecord (draw : Nat) : Record :=
  { receiverId := Config.freeBits 16 draw 0
    senderId := Config.freeBits 16 draw 1
    u1 := Config.freeBits 8 draw 2
    u2 := Config.freeBits 8 draw 3
    u3 := Config.freeBits 8 draw 4
    totalAhRaw := Config.freeBits 24 draw 5
    totalAhInt := Config.freeBits 18 draw 6
    totalAhFrac := Config.freeBits 7 draw 7
    u4 := Config.freeBits 16 draw 8
    currentARaw := Config.freeBits 16 draw 9
    currentAInt := Config.freeBits 10 draw 10
    currentAFrac := Config.freeBits 7 draw 11
    battery := Config.freeBits 8 draw 12
    u5 := Config.freeBits 8 draw 13
    crcRx := Config.freeBits 16 draw 14
    u6 := Config.freeBits 4 draw 15 }

/-- `n` unspecified elements of `ADJ` (U2). -/
def freeSymbols (draw n : Nat) : List DecSymbol :=
  (List.range n).map fun i => DecSymbol.ofBits (Config.freeBits 5 draw (32 + i))

/-- The record registers, `CRC_RESULT` and `CRC` become unspecified (R28, R216; U1). -/
def State.unspecifyRecord (s : State) : State :=
  { s with
    record := freeRecord s.draws
    crc := Config.freeBits 16 s.draws 16
    crcResult := CrcClass.ofCode (Config.freeBits 2 s.draws 17)
    draws := s.draws + 1 }

/-- `ADJ` and `ADJLEN` become unspecified; `ADJLEN` keeps its range 0 to `LMAX` (R23, R28; U2). -/
def State.unspecifyAdj (s : State) : State :=
  { s with
    mem := { s.mem with
      adj := freeSymbols s.draws s.params.lmax
      adjLen := Config.freeNat s.draws 18 % (s.params.lmax + 1) }
    draws := s.draws + 1 }

/-- `STATUS` becomes unspecified, as while `DONE = 0` (R28; U3). -/
def State.unspecifyStatus (s : State) : State :=
  { s with status := Status.ofCode (Config.freeBits 2 s.draws 19), draws := s.draws + 1 }

/-- Every output but `DONE` becomes unspecified (R28: "When `DONE = 0`"; U3). -/
def State.unspecifyOutputs (s : State) : State := s.unspecifyRecord.unspecifyAdj.unspecifyStatus

/-! ## Writing -/

/-- `ADJ[0..len(A)) <- A; ADJLEN <- len(A)` (R194). The elements from `ADJLEN` up are unspecified (R23). -/
def State.writeAdj (s : State) (a : List DecSymbol) : State :=
  { s with
    mem := { s.mem with
      adj := a ++ freeSymbols s.draws (s.params.lmax - a.length)
      adjLen := a.length }
    draws := s.draws + 1 }

/-- `STATUS <- o; DONE <- 1` (R194). -/
def State.finish (s : State) (o : Status) : State := { s with status := o, done := true }

/-- A transaction ends in a failure (R216): `DONE <- 1`, `STATUS <-` the code, no record. After
ResyncFailed the adjusted buffer is unspecified as well (R28). -/
def State.fail (s : State) (f : Failure) : State :=
  match f with
  | .resyncFailed => (s.unspecifyRecord.unspecifyAdj).finish .resyncFailed
  | .tooShort => s.unspecifyRecord.finish .tooShort
  | .badHex => s.unspecifyRecord.finish .badHex

/-! ## Conditions on an operation -/

/-- An operation that reads the raw string needs one that the port can present (R21; U7). -/
def withRaw (s : State) (k : List Byte → Out) : Out :=
  if s.presentable then k s.rawString else .refused .rawNotPresentable

/-- An operation of the RESYNC unit needs the unit (R7, R198). -/
def withResync (s : State) (k : Out) : Out :=
  if s.params.hasResync then k else .refused .resyncAbsent

end Sys2Proof.Machine
end

