-- ==== Sys2Proof/Machine/Classify.lean ====
section
/-! DEFINITION. The meaning of `CLASSIFY` (45_classify.md); the comparison itself stands in Flags.lean. -/

namespace Sys2Proof.Machine

/-- `CLASSIFY` (R180). Alone it returns the class and writes nothing (R33); DECODE writes `CRC_RESULT`. -/
def execClassify (a r : BitVec 16) (s : State) : Out := .next (s.returns (.cls (classify a r)))

end Sys2Proof.Machine
end

