-- ==== Sys2Proof/Machine/Crc.lean ====
section
/-! DEFINITION. The CRC-16 generator (44_crc16.md): its steps as functions of the register, and the
meanings of `CRC.INIT`, `CRC.BIT`, `CRC.NIB`, `CRC.BYTE` and `CRC.SPAN`. -/

namespace Sys2Proof.Machine

/-- `CRC.BIT` of R162: shift left, and add the polynomial when the bit that leaves differs from the data
(log entry 15). -/
def crcBit (c : BitVec 16) (d : Bool) : BitVec 16 :=
  if c.getLsbD 15 ^^ d then (c <<< 1) ^^^ Config.crcPoly else c <<< 1

/-- `CRC.NIB` of R163: the four bits, bit 3 first. -/
def crcNib (c : BitVec 16) (n : Nib) : BitVec 16 :=
  crcBit (crcBit (crcBit (crcBit c (n.getLsbD 3)) (n.getLsbD 2)) (n.getLsbD 1)) (n.getLsbD 0)

/-- `CRC.BYTE` of R164: the high nibble, then the low one. -/
def crcByte (c : BitVec 16) (b : Byte) : BitVec 16 :=
  crcNib (crcNib c (b.extractLsb' 4 4)) (b.extractLsb' 0 4)

/-- `CRC.NIB` over a sequence of nibbles in order. -/
def crcNibs (c : BitVec 16) (x : List Nib) : BitVec 16 := x.foldl crcNib c

/-- `CRC.BYTE` over a sequence of bytes in order. -/
def crcBytes (c : BitVec 16) (x : List Byte) : BitVec 16 := x.foldl crcByte c

/-- `CRC.SPAN` of R165: `CRC.INIT`, then `CRC.NIB` over nibbles 8 to 35. -/
def crcSpan (adj : List DecSymbol) : BitVec 16 := crcNibs Config.crcInit (spanNibbles adj)

/-- `CRC.INIT` (R161). -/
def execCrcInit (s : State) : Out := .next ({ s with crc := Config.crcInit }.returns .none)

/-- `CRC.BIT` (R162). -/
def execCrcBit (d : BitVec 1) (s : State) : Out :=
  .next ({ s with crc := crcBit s.crc (d.getLsbD 0) }.returns .none)

/-- `CRC.NIB` (R163). -/
def execCrcNib (n : Nib) (s : State) : Out := .next ({ s with crc := crcNib s.crc n }.returns .none)

/-- `CRC.BYTE` (R164). -/
def execCrcByte (b : Byte) (s : State) : Out := .next ({ s with crc := crcByte s.crc b }.returns .none)

/-- `CRC.SPAN` (R165). Its precondition is that the 28 symbols have `ok = 1`; where it fails the rule gives
the register no value, and it is a free value (log entry 9). -/
def execCrcSpan (s : State) : Out :=
  if spanReady s.adjusted then .next ({ s with crc := crcSpan s.adjusted }.returns .none)
  else
    .next ({ s with crc := Config.freeBits 16 s.draws 23, draws := s.draws + 1 }.returns .none)

end Sys2Proof.Machine
end

