-- ==== Sys2Proof/Machine/FieldMux.lean ====
section
/-! DEFINITION. The fixed-width nibble-field multiplexer (42_fieldmux.md): the meanings of `SEL.*`. A select
writes nothing; it returns its value (R33). -/

namespace Sys2Proof.Machine

/-- A select of nibbles `[lo, lo+n)` (R130). Its preconditions hold whenever DECODE uses it; on a window that
does not meet them the rule gives no value, and the `4n` bits are a free value (log entry 9). -/
def select (lo n : Nat) (s : State) : Out :=
  if windowReady s.adjusted then .next (s.returns (.bits (4 * n) (memRead s.adjusted lo n)))
  else
    .next ({ s with draws := s.draws + 1 }.returns
      (.bits (4 * n) (Config.freeBits (4 * n) s.draws 22)))

/-- `SEL.SYNCWORD` (R131): the hardwired constant, "not taken from the window". -/
def execSelSyncword (s : State) : Out := .next (s.returns (.bits 16 s.syncword))

/-- `SEL.RECEIVER_ID`, nibbles `[4,8)` (R132). -/
def execSelReceiverId (s : State) : Out := select 4 4 s

/-- `SEL.SENDER_ID`, nibbles `[8,12)` (R133). -/
def execSelSenderId (s : State) : Out := select 8 4 s

/-- `SEL.U1`, nibbles `[12,14)` (R134). -/
def execSelU1 (s : State) : Out := select 12 2 s

/-- `SEL.U2`, nibbles `[14,16)` (R135). -/
def execSelU2 (s : State) : Out := select 14 2 s

/-- `SEL.U3`, nibbles `[16,18)` (R136). -/
def execSelU3 (s : State) : Out := select 16 2 s

/-- `SEL.TOTAL_AH`, nibbles `[18,24)` (R137). -/
def execSelTotalAh (s : State) : Out := select 18 6 s

/-- `SEL.U4`, nibbles `[24,28)` (R138). -/
def execSelU4 (s : State) : Out := select 24 4 s

/-- `SEL.CURRENT_A`, nibbles `[28,32)` (R139). -/
def execSelCurrentA (s : State) : Out := select 28 4 s

/-- `SEL.BATTERY`, nibbles `[32,34)` (R140). -/
def execSelBattery (s : State) : Out := select 32 2 s

/-- `SEL.U5`, nibbles `[34,36)` (R141). -/
def execSelU5 (s : State) : Out := select 34 2 s

/-- `SEL.CRC`, nibbles `[36,40)` (R142). -/
def execSelCrc (s : State) : Out := select 36 4 s

/-- `SEL.U6`, nibble `[40,41)` (R143). -/
def execSelU6 (s : State) : Out := select 40 1 s

/-- `SEL.SPAN`, the 28 nibbles `[8,36)` in order (R144). -/
def execSelSpan (s : State) : Out :=
  if windowReady s.adjusted then .next (s.returns (.nibbles (spanNibbles s.adjusted)))
  else
    .next ({ s with draws := s.draws + 1 }.returns
      (.nibbles ((List.range (Config.crcHi - Config.crcLo)).map fun i => Config.freeBits 4 s.draws (32 + i))))

end Sys2Proof.Machine
end

