-- ==== Sys2Proof/Machine/HexDec.lean ====
section
/-! DEFINITION. The meanings of `HEXDEC`, `HEXDECS` and `HEXINT` (40_hexdec.md). -/

namespace Sys2Proof.Machine

/-- `HEXDEC` (R100). -/
def execHexdec (c : Byte) (s : State) : Out := .next (s.returns (.symbol (hexdec c)))

/-- `HEXDECS` (R101): decodes `RAW[0..RAWLEN)`. -/
def execHexdecs (s : State) : Out := withRaw s fun raw => .next (s.returns (.symbols (hexdecs raw)))

/-- `HEXINT` (R103). Its rule is stated for symbols with `ok = 1`; on another symbol the integer is a
free value of the same width (log entry 9). -/
def execHexint (x : List DecSymbol) (s : State) : Out :=
  if (Instr.hexint x).wellFormed then
    if allOk x then .next (s.returns (.bits (4 * x.length) (hexInt x)))
    else
      .next ({ s with draws := s.draws + 1 }.returns
        (.bits (4 * x.length) (Config.freeBits (4 * x.length) s.draws 20)))
  else .refused .operandShape

end Sys2Proof.Machine
end

