-- ==== Sys2Proof/Machine/Resync.lean ====
section
/-! DEFINITION. The sync-pattern matcher with one-bit shift detection (41_resync.md): its component
operations as functions, and the meanings of `MATCHSYNC`, `FILL5`, `FILLA`, `STRIP5`, `SHL1`, `SHR1` and
`RESYNC`. The unit is optional (R7). -/

namespace Sys2Proof.Machine

/-- `MATCHSYNC` of R111. -/
def matchSync : List DecSymbol → Bool
  | x0 :: x1 :: x2 :: x3 :: _ => x0.isNib 3#4 && x1.isNib 4#4 && x2.isNib 7#4 && x3.isNib 5#4
  | _ => false

/-- A sequence starts with a run of at least `FILLER_MIN_RUN` nibbles `n` (R8, decision D6). -/
def startsWithRun (n : Nib) (x : List DecSymbol) : Bool :=
  decide (Config.fillerMinRun ≤ x.length) && (x.take Config.fillerMinRun).all fun y => y.isNib n

/-- `FILL5` of R112. -/
def fill5 (x : List DecSymbol) : Bool := startsWithRun Config.fillA x

/-- `FILLA` of R113. -/
def fillA (x : List DecSymbol) : Bool := startsWithRun Config.fillB x

/-- `STRIP5` of R115. -/
def strip5 : List DecSymbol → List DecSymbol
  | [] => []
  | y :: ys => if y.isNib 5#4 then strip5 ys else y :: ys

/-- `SHL1` of R116: `NIBS((VEC(X) << 1)[4N-1:0], N)`. -/
def shl1 (x : List DecSymbol) : List DecSymbol := nibs x.length (vec x <<< 1)

/-- `SHR1` of R117: `NIBS(VEC(X) >> 1, N)`. -/
def shr1 (x : List DecSymbol) : List DecSymbol := nibs x.length (vec x >>> 1)

/-- Steps 3 to 5 of RESYNC on the remainder (R123, R124, R125). -/
def resyncRemainder (rem : List DecSymbol) : Option (List DecSymbol) :=
  if fill5 rem then
    if matchSync (strip5 rem) then some (strip5 rem) else none
  else if fillA rem then
    if allOk rem then
      if matchSync (strip5 (shl1 rem)) then some (strip5 (shl1 rem))
      else if matchSync (strip5 (shr1 rem)) then some (strip5 (shr1 rem))
      else none
    else none
  else none

/-- `RESYNC` of R120: step 1 (R121), then the remainder after the four lead-in symbols (R122). -/
def resync (d : List DecSymbol) : Option (List DecSymbol) :=
  if matchSync d then some d else resyncRemainder (d.drop Config.leadDrop)

/-- A one-bit shift as an operation. Its rule is stated for symbols with `ok = 1`; on another symbol the
`4N` bits are a free value and the length stays `N` (log entry 9). -/
def runShift (f : List DecSymbol → List DecSymbol) (x : List DecSymbol) (s : State) : Out :=
  if allOk x then .next (s.returns (.symbols (f x)))
  else
    .next ({ s with draws := s.draws + 1 }.returns
      (.symbols (nibs x.length (Config.freeBits (4 * x.length) s.draws 21))))

/-- `MATCHSYNC` (R111). -/
def execMatchsync (x : List DecSymbol) (s : State) : Out :=
  withResync s (.next (s.returns (.flag (matchSync x))))

/-- `FILL5` (R112). -/
def execFill5 (x : List DecSymbol) (s : State) : Out :=
  withResync s (.next (s.returns (.flag (fill5 x))))

/-- `FILLA` (R113). -/
def execFilla (x : List DecSymbol) (s : State) : Out :=
  withResync s (.next (s.returns (.flag (fillA x))))

/-- `STRIP5` (R115). -/
def execStrip5 (x : List DecSymbol) (s : State) : Out :=
  withResync s (.next (s.returns (.symbols (strip5 x))))

/-- `SHL1` (R116). -/
def execShl1 (x : List DecSymbol) (s : State) : Out :=
  withResync s (if (Instr.shl1 x).wellFormed then runShift shl1 x s else .refused .operandShape)

/-- `SHR1` (R117). -/
def execShr1 (x : List DecSymbol) (s : State) : Out :=
  withResync s (if (Instr.shr1 x).wellFormed then runShift shr1 x s else .refused .operandShape)

/-- `RESYNC` (R120): reads the raw string, writes `ADJ` and `ADJLEN`. When it returns nothing the adjusted
buffer is unspecified (R28). -/
def execResync (s : State) : Out :=
  withResync s (withRaw s fun raw =>
    match resync (hexdecs raw) with
    | some a => .next ((s.writeAdj a).returns (.adjusted (some a)))
    | none => .next (s.unspecifyAdj.returns (.adjusted none)))

end Sys2Proof.Machine
end

