-- ==== Sys2Proof/Machine/Scale.lean ====
section
/-! DEFINITION. The scale-by-0.01 units (43_scale.md) and the meanings of `SCALE24` and `SCALE16`. -/

namespace Sys2Proof.Machine

/-- `SCALE24` of R151: `(r div 100, r mod 100)` in 18 and 7 bits. -/
def scale24 (r : BitVec 24) : BitVec 18 × BitVec 7 :=
  (BitVec.ofNat 18 (r.toNat / Config.scale), BitVec.ofNat 7 (r.toNat % Config.scale))

/-- `SCALE16` of R152: `(r div 100, r mod 100)` in 10 and 7 bits. -/
def scale16 (r : BitVec 16) : BitVec 10 × BitVec 7 :=
  (BitVec.ofNat 10 (r.toNat / Config.scale), BitVec.ofNat 7 (r.toNat % Config.scale))

/-- `SCALE24` (R151). -/
def execScale24 (r : BitVec 24) (s : State) : Out :=
  .next (s.returns (.scaled24 (scale24 r).1 (scale24 r).2))

/-- `SCALE16` (R152). -/
def execScale16 (r : BitVec 16) (s : State) : Out :=
  .next (s.returns (.scaled16 (scale16 r).1 (scale16 r).2))

end Sys2Proof.Machine
end

