-- ==== Sys2Proof/Machine/Control.lean ====
section
/-! DEFINITION. The composite operations and the handshake (46_decode.md, 70_reset_and_hazards.md): the
meanings of `DECODE`, `FRAME`, `START` and `RESET`, and the passing of a step inside a transaction. -/

namespace Sys2Proof.Machine

/-! ## DECODE -/

/-- The two checks of DECODE in their order: TooShort (R191), then BadHex (R193). -/
def decodeFailure (adj : List DecSymbol) : Option Failure :=
  if adj.length < Config.frameNibbles then some .tooShort
  else if allOk (adj.take Config.badHexWindow) then none
  else some .badHex

/-- The record of an adjusted string: the selects and the two scalings of R190, at the offsets of R56. -/
def recordOf (adj : List DecSymbol) : Record :=
  { receiverId := memRead adj 4 4
    senderId := memRead adj 8 4
    u1 := memRead adj 12 2
    u2 := memRead adj 14 2
    u3 := memRead adj 16 2
    totalAhRaw := memRead adj 18 6
    totalAhInt := (scale24 (memRead adj 18 6)).1
    totalAhFrac := (scale24 (memRead adj 18 6)).2
    u4 := memRead adj 24 4
    currentARaw := memRead adj 28 4
    currentAInt := (scale16 (memRead adj 28 4)).1
    currentAFrac := (scale16 (memRead adj 28 4)).2
    battery := memRead adj 32 2
    u5 := memRead adj 34 2
    crcRx := memRead adj 36 4
    u6 := memRead adj 40 1 }

/-- DECODE's writes when both checks pass: the whole record, `CRC` and `CRC_RESULT` (R190, R192). -/
def State.writeRecord (s : State) : State :=
  { s with
    record := recordOf s.adjusted
    crc := crcSpan s.adjusted
    crcResult := classify (crcSpan s.adjusted) (recordOf s.adjusted).crcRx }

/-- `DECODE` alone (R190). It writes no `STATUS` and no `DONE`; when a check fails no register is written
as a record and all of them are unspecified (R192, R28; log entry 13). -/
def execDecode (s : State) : Out :=
  match decodeFailure s.adjusted with
  | none => .next (s.writeRecord.returns (.outcome .ok))
  | some f => .next (s.unspecifyRecord.returns (.outcome f.status))

/-! ## FRAME -/

/-- DECODE as the end of a transaction, with the `STATUS` and `DONE` of R194. -/
def State.decodeAndFinish (s : State) : State :=
  match decodeFailure s.adjusted with
  | none => s.writeRecord.finish .ok
  | some f => s.fail f

/-- FRAME on a raw string (R194). -/
def State.frame (s : State) (raw : List Byte) : State :=
  match resync (hexdecs raw) with
  | none => s.fail .resyncFailed
  | some a => (s.writeAdj a).decodeAndFinish

/-- `FRAME` (R194). -/
def execFrame (s : State) : Out :=
  withResync s (withRaw s fun raw =>
    .next ((s.frame raw).returns (.outcome (s.frame raw).status)))

/-! ## START -/

/-- The transaction on a raw string: FRAME, or the DECODE-only form of R198 where there is no RESYNC. -/
def State.transact (s : State) (raw : List Byte) : State :=
  if s.params.hasResync then s.frame raw else (s.writeAdj (hexdecs raw)).decodeAndFinish

/-- A whole transaction, from START (`DONE <- 0`) to DONE (`DONE <- 1`) (R196). -/
def State.transaction (s : State) (raw : List Byte) : State :=
  let t := { s with done := false, window := none }.transact raw
  t.returns (.outcome t.status)

/-- The delay between START and DONE in steps: `LAT`, or a free number where `LAT` is unbounded (R7). -/
def State.delay (s : State) : Nat :=
  match s.params.lat with
  | some n => n
  | none => Config.freeNat s.draws 24

/-- START with a delay of `n + 1` steps: `DONE <- 0`, and the transaction is in progress. Every output but
`DONE` is unspecified until then (R28). -/
def State.openWindow (s : State) (raw : List Byte) (n : Nat) : State :=
  let t := s.unspecifyOutputs
  { t with done := false, window := some { sampled := raw, left := n }, result := .none }

/-- `START` (R196). With no delay the transaction is one atomic step. During a transaction START is
refused (R245). -/
def execStart (s : State) : Out :=
  if s.window.isSome then .refused .startDuringTransaction
  else
    withRaw s fun raw =>
      match s.delay with
      | 0 => .next (s.transaction raw)
      | n + 1 => .next (s.openWindow raw n)

/-- One step of a transaction in progress. The string must still be the one sampled at START (R244). -/
def tick (w : Window) (s : State) : Out :=
  if s.presentable && s.rawString == w.sampled then
    match w.left with
    | 0 => .next (s.transaction w.sampled)
    | n + 1 =>
      .next { s.unspecifyOutputs with window := some { w with left := n }, result := .none }
  else .refused .inputChanged

/-! ## RESET -/

/-- The state of R240 from any state: `DONE`, `STATUS` and `CRC` at their reset values, every other register
unspecified, and a transaction in progress abandoned (R241). The ports and the parameters stay. -/
def State.resetBlock (s : State) : State :=
  { s.unspecifyRecord.unspecifyAdj with
    done := false
    status := .ok
    crc := Config.crcInit
    window := none
    result := .none }

/-- `RESET` (R199); the START pin beside it has no effect (R241). -/
def execReset (_ : BitVec 1) (s : State) : Out := .next s.resetBlock

end Sys2Proof.Machine
end

