-- ==== Sys2Proof/Machine/Dispatch.lean ====
section
/-! DEFINITION. One arm for each operation of spec/opcode_table.json, in the table's order. -/

namespace Sys2Proof.Machine

def exec (i : Instr) (s : State) : Host.Outcome State Fault Refusal :=
  match i with
  | .hexdec c => Sys2Proof.Machine.execHexdec c s
  | .hexdecs => Sys2Proof.Machine.execHexdecs s
  | .hexint x => Sys2Proof.Machine.execHexint x s
  | .matchsync x => Sys2Proof.Machine.execMatchsync x s
  | .fill5 x => Sys2Proof.Machine.execFill5 x s
  | .filla x => Sys2Proof.Machine.execFilla x s
  | .strip5 x => Sys2Proof.Machine.execStrip5 x s
  | .shl1 x => Sys2Proof.Machine.execShl1 x s
  | .shr1 x => Sys2Proof.Machine.execShr1 x s
  | .resync => Sys2Proof.Machine.execResync s
  | .selSyncword => Sys2Proof.Machine.execSelSyncword s
  | .selReceiverId => Sys2Proof.Machine.execSelReceiverId s
  | .selSenderId => Sys2Proof.Machine.execSelSenderId s
  | .selU1 => Sys2Proof.Machine.execSelU1 s
  | .selU2 => Sys2Proof.Machine.execSelU2 s
  | .selU3 => Sys2Proof.Machine.execSelU3 s
  | .selTotalAh => Sys2Proof.Machine.execSelTotalAh s
  | .selU4 => Sys2Proof.Machine.execSelU4 s
  | .selCurrentA => Sys2Proof.Machine.execSelCurrentA s
  | .selBattery => Sys2Proof.Machine.execSelBattery s
  | .selU5 => Sys2Proof.Machine.execSelU5 s
  | .selCrc => Sys2Proof.Machine.execSelCrc s
  | .selU6 => Sys2Proof.Machine.execSelU6 s
  | .selSpan => Sys2Proof.Machine.execSelSpan s
  | .scale24 r => Sys2Proof.Machine.execScale24 r s
  | .scale16 r => Sys2Proof.Machine.execScale16 r s
  | .crcInit => Sys2Proof.Machine.execCrcInit s
  | .crcBit d => Sys2Proof.Machine.execCrcBit d s
  | .crcNib n => Sys2Proof.Machine.execCrcNib n s
  | .crcByte b => Sys2Proof.Machine.execCrcByte b s
  | .crcSpan => Sys2Proof.Machine.execCrcSpan s
  | .classify a r => Sys2Proof.Machine.execClassify a r s
  | .decode => Sys2Proof.Machine.execDecode s
  | .frame => Sys2Proof.Machine.execFrame s
  | .start => Sys2Proof.Machine.execStart s
  | .reset p => Sys2Proof.Machine.execReset p s

end Sys2Proof.Machine
end

