-- ==== Sys2Proof/Machine/Fetch.lean ====
section
/-! DEFINITION. Where a step finds what to do. The block fetches no instructions (R63): the host asserts
`RST` or `START` (R201). Beside the pins stands the bench, the model's own, where one request of a single
operation waits (log entry 1); it is empty in every state a host alone can reach. -/

namespace Sys2Proof.Machine

/-- What the coming step does. -/
inductive Request where
  /-- Nothing is asked and no transaction is in progress. -/
  | idle
  /-- A transaction is in progress. -/
  | progress (w : Window)
  /-- An operation, in the state with the request taken away. -/
  | run (i : Instr) (s : State)
  /-- The bench holds bytes that are no request. -/
  | rejected (r : Reject)

/-- The pins `(RST, START)`, `RST` in bit 1 (the table's rows START and RESET). -/
def State.pins (s : State) : BitVec 2 := BitVec.ofBool s.rst ++ BitVec.ofBool s.start

/-- The host's assertion lasts one step (log entry 8). -/
def State.releasePins (s : State) : State := { s with rst := false, start := false }

/-- The request on the bench is taken once. -/
def State.clearBench (s : State) : State := { s with bench := [] }

/-- The pins come first, RST before START (R221, R241); then a transaction in progress; then the bench. -/
def State.request (s : State) : Request :=
  match decodePins s.pins with
  | some i => .run i s.releasePins
  | none =>
    match s.window with
    | some w => .progress w
    | none =>
      match s.bench with
      | [] => .idle
      | bs =>
        match decode bs with
        | .ok i => .run i s.clearBench
        | .error r => .rejected r

/-- Bytes that are no request: they stand on the bench for a word the decoder refuses. -/
def noRequest : List Byte := [0xFF]

/-- A request where the coming step fetches it: on the pins for `START` and `RESET`, else on the bench. No
transaction is in progress. -/
def State.placeRequest (s : State) (bs : List Byte) : State :=
  match decode bs with
  | .ok .start => { s with rst := false, start := true, window := none }
  | .ok (.reset p) => { s with rst := true, start := p.getLsbD 0, window := none }
  | _ => { s with rst := false, start := false, window := none, bench := bs }

/-- A word of the table where the coming step fetches it. -/
def State.placeTableWord (s : State) (nbits w : Nat) : State :=
  s.placeRequest ((tableRequest nbits w).getD noRequest)

end Sys2Proof.Machine
end

