-- ==== Sys2Proof/Machine/Step.lean ====
section
/-! DEFINITION. One step of the machine, and where a word of the operation table is put for it. -/

namespace Sys2Proof.Machine

/-- FIXED NAME. One step: what is asked on the pins, the passing of a transaction in progress, or the
request on the bench; with none of these nothing changes (R220: nothing is asynchronous). -/
def step (s : State) : Host.Outcome State Fault Refusal :=
  match s.request with
  | .idle => .next s
  | .progress w => tick w s
  | .run i t => exec i t
  | .rejected r => .refused (.badRequest r)

/-- FIXED NAME. `s` with a word of spec/opcode_table.json where `step` finds it next. -/
def State.withFetchWord (s : State) (nbits w : Nat) : State := s.placeTableWord nbits w

end Sys2Proof.Machine
end

