-- ==== Sys2Proof/Machine/HostPort.lean ====
section
/-! DEFINITION. The host's side of the block: what it drives (R21), and what it may read and when (R26,
R28, R64, R246). The host can do nothing else (R18). -/

namespace Sys2Proof.Machine

/-! ## Driving the ports -/

/-- The host drives `RAW[0..RAWLEN)` and `RAWLEN`; the elements above keep the port's width. -/
def State.present (s : State) (raw : List Byte) : State :=
  { s with mem := { s.mem with
      raw := raw ++ List.replicate (s.params.lmax - raw.length) 0
      rawLen := raw.length } }

/-- The host asserts `START` for the coming step. -/
def State.assertStart (s : State) : State := { s with start := true }

/-- The host asserts `RST` for the coming step. -/
def State.assertRst (s : State) : State := { s with rst := true }

/-! ## Reading the outputs -/

/-- The outputs of the block with a numeric value (R26 and R22; `ADJ` has a read of its own). -/
inductive Output where
  | done
  | status
  | recValid
  | syncword
  | receiverId
  | senderId
  | u1
  | u2
  | u3
  | totalAhRaw
  | totalAhInt
  | totalAhFrac
  | u4
  | currentARaw
  | currentAInt
  | currentAFrac
  | battery
  | u5
  | crcRx
  | u6
  | crcResult
  | crc
  | adjLen
  deriving DecidableEq, Repr

/-- The adjusted string is on the outputs: after success, TooShort and BadHex (R28). -/
def State.adjValid (s : State) : Bool := s.done && !(s.status == .resyncFailed)

/-- A register of the record, `CRC` or `CRC_RESULT`: it has a value only when `REC_VALID` (R28). -/
def ifRecord (s : State) (v : Nat) : Option Nat := if s.recValid then some v else none

/-- What the host reads at an output; `none` where R28 leaves the output unspecified ("reading one is an
error of the reader"). `DONE`, the derived `REC_VALID` and the hardwired `SYNCWORD` always have a value
(log entry 11). -/
def hostRead (o : Output) (s : State) : Option Nat :=
  match o with
  | .done => some s.done.toNat
  | .status => if s.done then some s.status.code.toNat else none
  | .recValid => some s.recValid.toNat
  | .syncword => some s.syncword.toNat
  | .receiverId => ifRecord s s.record.receiverId.toNat
  | .senderId => ifRecord s s.record.senderId.toNat
  | .u1 => ifRecord s s.record.u1.toNat
  | .u2 => ifRecord s s.record.u2.toNat
  | .u3 => ifRecord s s.record.u3.toNat
  | .totalAhRaw => ifRecord s s.record.totalAhRaw.toNat
  | .totalAhInt => ifRecord s s.record.totalAhInt.toNat
  | .totalAhFrac => ifRecord s s.record.totalAhFrac.toNat
  | .u4 => ifRecord s s.record.u4.toNat
  | .currentARaw => ifRecord s s.record.currentARaw.toNat
  | .currentAInt => ifRecord s s.record.currentAInt.toNat
  | .currentAFrac => ifRecord s s.record.currentAFrac.toNat
  | .battery => ifRecord s s.record.battery.toNat
  | .u5 => ifRecord s s.record.u5.toNat
  | .crcRx => ifRecord s s.record.crcRx.toNat
  | .u6 => ifRecord s s.record.u6.toNat
  | .crcResult => ifRecord s s.crcResult.code.toNat
  | .crc => ifRecord s s.crc.toNat
  | .adjLen => if s.adjValid then some s.mem.adjLen else none

/-- What the host reads at `ADJ[i]`: a decoded symbol below `ADJLEN` (R23, R64), otherwise unspecified. -/
def hostReadAdj (i : Nat) (s : State) : Option DecSymbol :=
  if s.adjValid then s.adjusted[i]? else none

end Sys2Proof.Machine
end

