-- ==== Sys2Proof/Safety.lean ====
section
/-! DEFINITION. What counts as a safe state and a safe run, in the terms the statements use: the form of the
buffers, what a readable record means, and which states the host alone can bring about. -/

namespace Sys2Proof.Machine

/-- The buffers of a state have the form of its instance (R21, R23). -/
def State.memWf (s : State) : Bool := s.mem.wf s.params.lmax

/-- The record on the outputs is the one R190 makes of the adjusted string on the outputs (R28). -/
def State.RecordAgrees (s : State) : Prop :=
  windowReady s.adjusted = true ∧
    s.record = recordOf s.adjusted ∧
    s.crc = crcSpan s.adjusted ∧
    s.crcResult = classify s.crc s.record.crcRx

/-- What holds of every state a host alone brings about, that is with an empty bench:
the buffers have their form; a transaction in progress shows `DONE = 0` (R196); when `REC_VALID` the outputs
agree with one another (R28, R30); with RESYNC, a finished transaction that did not end in ResyncFailed
shows an adjusted string that starts with the syncword (R110); without it ResyncFailed never shows (R198). -/
structure State.HostInv (s : State) : Prop where
  bench_empty : s.bench = []
  buffers : s.memWf = true
  window_done : s.window.isSome = true → s.done = false
  record : s.recValid = true → s.RecordAgrees
  anchored : s.params.hasResync = true → s.adjValid = true → matchSync s.adjusted = true
  no_resync : s.params.hasResync = false → s.done = true → s.status ≠ .resyncFailed

/-- The host reads the same at every output of two states (R19: what can be observed of the block). -/
def SameOutputs (s t : State) : Prop :=
  (∀ o, hostRead o s = hostRead o t) ∧ ∀ i, hostReadAdj i s = hostReadAdj i t

/-- `k` steps of the machine, as the host takes them. -/
def runSteps (k : Nat) (s : State) : Out := Host.Core.run Sys2Proof.core k s

/-- The state of the block but for the model's own `result` and `draws`: the ports, the buffers, every
register and flag, and the transaction in progress. -/
def SameBlock (s t : State) : Prop :=
  t.params = s.params ∧ t.rst = s.rst ∧ t.start = s.start ∧ t.mem = s.mem ∧ t.record = s.record ∧
    t.crc = s.crc ∧ t.done = s.done ∧ t.status = s.status ∧ t.crcResult = s.crcResult ∧
    t.window = s.window ∧ t.bench = s.bench

/-- `fv` is the frame vector `FV[163:0]` of an adjusted string: `FV[163-4i : 160-4i] = ADJ[i].nib` for `i`
from 0 to 40, "defined only when `ADJLEN >= 41` and `ADJ[i].ok = 1` for all `i < 41`" (R55). -/
def IsFrameVector (adj : List DecSymbol) (fv : BitVec 164) : Prop :=
  ∀ i, i < 41 → adj[i]? = some (.hex (fv.extractLsb' (160 - 4 * i) 4))

/-- The nibbles of the CRC span as bits of the frame vector, `FV[131:20]`, first nibble first (R144). -/
def spanOfVector (fv : BitVec 164) : List Nib :=
  (List.range 28).map fun i => fv.extractLsb' (128 - 4 * i) 4

/-- `t` is `s` but for the adjusted buffer, `ADJLEN`, and the model's own `result` and `draws`. -/
def OnlyAdjWritten (s t : State) : Prop :=
  t = { s with
    mem := { s.mem with adj := t.mem.adj, adjLen := t.mem.adjLen }
    result := t.result
    draws := t.draws }

/-- `t` is `s` but for the registers DECODE writes (R33) and the model's own `result` and `draws`. -/
def OnlyRecordWritten (s t : State) : Prop :=
  t = { s with
    record := t.record
    crc := t.crc
    crcResult := t.crcResult
    result := t.result
    draws := t.draws }

/-- How a transaction on the adjusted string `a` (or on nothing, where RESYNC gave nothing) leaves the block:
`DONE = 1`; the failure of R212, R213 or R214 in that priority, or a record that agrees with the adjusted
string (R190, R194); the ports, the parameters and the bench as they were. -/
def EndsTransaction (a : Option (List DecSymbol)) (s t : State) : Prop :=
  t.done = true ∧ t.window = none ∧ t.result = .outcome t.status ∧
    t.params = s.params ∧ t.rst = s.rst ∧ t.start = s.start ∧ t.bench = s.bench ∧
    t.mem.raw = s.mem.raw ∧ t.mem.rawLen = s.mem.rawLen ∧
    match a with
    | none => t.status = .resyncFailed
    | some x =>
      t.adjusted = x ∧ t.mem.adjLen = x.length ∧
        (x.length < 41 → t.status = .tooShort) ∧
        (41 ≤ x.length → .other ∈ x.take 41 → t.status = .badHex) ∧
        (41 ≤ x.length → .other ∉ x.take 41 → t.status = .ok ∧ t.RecordAgrees)

end Sys2Proof.Machine
end

