-- ==== Sys2Proof/Certificates/Slice0/Obligations.lean ====
section
/-! DEFINITION. The statements for the provers. Each docstring names the rule of spec/ it formalises; where
the spec marks a rule as its own inference ("[derived: …]") or the clause is the model's choice, it says so.
Where an operation returns a value, the statements see it in the model's own field `result` (log entry 3). -/

open Sys2Proof Sys2Proof.Machine

/-! ## Encoding and the step -/

/-- Decoding an encoded operation gives it back, for every operation and every operand of a legal shape.
The request format is the model's own (log entry 1). -/
def Obligations.DecodeOfEncodeIsTheOperation : Prop :=
  ∀ i : Instr, i.wellFormed = true → decode (encode i) = .ok i

/-- A request has one meaning and an operation one request: what decodes is the encoding of a well-formed
operation. The request format is the model's own (log entry 1). -/
def Obligations.EncodeOfDecodeIsTheRequest : Prop :=
  ∀ (bs : List Byte) (i : Instr), decode bs = .ok i → encode i = bs ∧ i.wellFormed = true

/-- Six written requests decode to the operation they stand for: the symbol `E`, the 24-bit operand 1000, the
computed checksum `0x3A9C` beside the received `0x1D4E`, the sequence 3, 4, 7, 5, and the pins `01` and `11`.
The operands are those of the table; the row byte before them and the byte that holds a symbol are the model's
own format (DESIGN CHOICE, log entry 1). -/
def Obligations.WrittenWordsDecode : Prop :=
  decode [0, 0x45] = .ok (.hexdec 0x45) ∧
  decode [24, 0xE8, 0x03, 0x00] = .ok (.scale24 1000) ∧
  decode [31, 0x4E, 0x1D, 0x9C, 0x3A] = .ok (.classify 0x3A9C 0x1D4E) ∧
  decode [3, 0x13, 0x14, 0x17, 0x15] = .ok (.matchsync [.hex 3#4, .hex 4#4, .hex 7#4, .hex 5#4]) ∧
  decode [34, 0x01] = .ok .start ∧
  decode [35, 0x03] = .ok (.reset 1)

/-- What a step does: the operation on the pins, RST before START; else one step of the transaction in
progress; else the request on the bench; else nothing; bytes that are no request are refused. The host's
assertion and the bench request are taken away before the operation runs (the model's choice, log entries 1
and 8). -/
def Obligations.StepRunsTheRequestedOperation : Prop :=
  (∀ s i, decodePins s.pins = some i → step s = exec i s.releasePins) ∧
  (∀ s w, s.rst = false → s.start = false → s.window = some w → step s = tick w s) ∧
  (∀ s i, s.rst = false → s.start = false → s.window = none → decode s.bench = .ok i →
    step s = exec i s.clearBench) ∧
  (∀ s, s.rst = false → s.start = false → s.window = none → s.bench = [] → step s = .next s) ∧
  (∀ s r, s.rst = false → s.start = false → s.window = none → s.bench ≠ [] → decode s.bench = .error r →
    step s = .refused (.badRequest r))

/-- What the decoder reads from a bare word of the operation table, and that the word runs. The fixed patterns
of the table stand for their rows (`MATCHSYNC`, `FILL5`, `FILLA`, `STRIP5`, `START` `01`, `RESET` `1s`, the
anchored frame word of `DECODE`); every other word of 8, 16, 24 or 32 bits for the first row of that width. Put
where the step fetches, a word runs as that operation in the state as it was, but with the ports `RST` and
`START` at 0, no transaction in progress, and the bench the request was on. How a word without a row is read and
where it is put are the model's own (DESIGN CHOICE, log entry 1). -/
def Obligations.TableWordRunsAsTheNextStep : Prop :=
  (∀ (s : State) (nbits w : Nat) (i : Instr), decodeTableWord nbits w = some i →
    ∃ bench, step (s.withFetchWord nbits w) =
      exec i { s with rst := false, start := false, window := none, bench := bench }) ∧
  decodeTableWord 16 0x3475 = some (.matchsync [.hex 3#4, .hex 4#4, .hex 7#4, .hex 5#4]) ∧
  decodeTableWord 8 0x55 = some (.fill5 [.hex 5#4, .hex 5#4]) ∧
  decodeTableWord 8 0xAA = some (.filla [.hex 10#4, .hex 10#4]) ∧
  decodeTableWord 8 0x05 = some (.strip5 [.hex 5#4]) ∧
  decodeTableWord 8 0x01 = some .start ∧
  decodeTableWord 8 0x02 = some (.reset 0) ∧
  decodeTableWord 8 0x03 = some (.reset 1) ∧
  (∀ w : Nat, decodeTableWord 168 w = if w / 2 ^ 148 = 0x3475 then some .decode else none) ∧
  (∀ c : Byte, c ∉ [0x01, 0x02, 0x03, 0x05, 0x55, 0xAA] → decodeTableWord 8 c.toNat = some (.hexdec c)) ∧
  (∀ r : BitVec 16, r ≠ 0x3475 → decodeTableWord 16 r.toNat = some (.scale16 r)) ∧
  (∀ r : BitVec 24, decodeTableWord 24 r.toNat = some (.scale24 r)) ∧
  ∀ a r : BitVec 16, decodeTableWord 32 (a ++ r).toNat = some (.classify a r)

/-! ## Symbols and integers -/

/-- `HEXDEC` (R100): the three classes, every other code `(0, 0)`; nothing but the returned value. -/
def Obligations.HexdecDecodesTheThreeClasses : Prop :=
  ∀ (c : Byte) (s : State),
    exec (.hexdec c) s = .next { s with
      result := .symbol
        (if 0x30 ≤ c.toNat ∧ c.toNat ≤ 0x39 then .hex (c.extractLsb' 0 4)
         else if 0x41 ≤ c.toNat ∧ c.toNat ≤ 0x46 then .hex (c.extractLsb' 0 4 + 9)
         else if 0x61 ≤ c.toNat ∧ c.toNat ≤ 0x66 then .hex (c.extractLsb' 0 4 + 9)
         else .other) }

/-- `HEXDECS` (R101, which the spec marks as derived): one decoded symbol for each of the `RAWLEN`
characters, in order. -/
def Obligations.HexdecsDecodesEachCharacter : Prop :=
  ∀ s : State, s.presentable = true → ∃ d : List DecSymbol,
    exec .hexdecs s = .next { s with result := .symbols d } ∧ d.length = s.mem.rawLen ∧
    ∀ i, i < s.mem.rawLen → ∃ c y, s.mem.raw[i]? = some c ∧ d[i]? = some y ∧
      exec (.hexdec c) s = .next { s with result := .symbol y }

/-- `HEXINT` (R103): the `4n`-bit integer is the positional value in base 16, first nibble most significant,
and its nibbles are the operand's. -/
def Obligations.HexintIsThePositionalValue : Prop :=
  ∀ (x : List DecSymbol) (s : State),
    (x.length = 1 ∨ x.length = 2 ∨ x.length = 4 ∨ x.length = 6) → .other ∉ x →
    ∃ v : BitVec (4 * x.length),
      exec (.hexint x) s = .next { s with result := .bits (4 * x.length) v } ∧
      v.toNat = ((List.range x.length).map fun i =>
        (x.getD i .other).nib.toNat * 16 ^ (x.length - 1 - i)).sum ∧
      ∀ i, i < x.length → x[i]? = some (.hex (v.extractLsb' (4 * (x.length - 1 - i)) 4))

/-! ## The RESYNC unit -/

/-- `MATCHSYNC` (R111): the first four symbols are there, are hexadecimal and are 3, 4, 7, 5. -/
def Obligations.MatchsyncTestsTheFirstFourSymbols : Prop :=
  ∀ (x : List DecSymbol) (s : State), s.params.hasResync = true →
    exec (.matchsync x) s =
      .next { s with result := .flag (decide (x.take 4 = [.hex 3#4, .hex 4#4, .hex 7#4, .hex 5#4])) }

/-- `FILL5` and `FILLA` (R112, R113): the first two symbols are the filler; both cannot be 1. -/
def Obligations.FillersTestTheFirstTwoSymbols : Prop :=
  ∀ (x : List DecSymbol) (s : State), s.params.hasResync = true →
    exec (.fill5 x) s = .next { s with result := .flag (decide (x.take 2 = [.hex 5#4, .hex 5#4])) } ∧
    exec (.filla x) s = .next { s with result := .flag (decide (x.take 2 = [.hex 10#4, .hex 10#4])) } ∧
    ¬ (fill5 x = true ∧ fillA x = true)

/-- `STRIP5` (R115): `X[k..)` for the least `k` whose symbol is not a hexadecimal 5, or for `k = len(X)`. -/
def Obligations.Strip5RemovesExactlyTheLeadingFives : Prop :=
  ∀ (x : List DecSymbol) (s : State), s.params.hasResync = true → ∃ k, k ≤ x.length ∧
    exec (.strip5 x) s = .next { s with result := .symbols (x.drop k) } ∧
    (∀ i, i < k → x[i]? = some (.hex 5#4)) ∧ x[k]? ≠ some (.hex 5#4)

/-- `SHL1` (R116): bit by bit from the front, each bit moves one place forward, the first is discarded and a
0 enters at the end; the length stays `N`. -/
def Obligations.Shl1MovesEveryBitForward : Prop :=
  ∀ (x : List DecSymbol) (s : State), s.params.hasResync = true → x ≠ [] → .other ∉ x →
    ∃ y : List DecSymbol, exec (.shl1 x) s = .next { s with result := .symbols y } ∧
      y.length = x.length ∧ .other ∉ y ∧ hexNat y = 2 * hexNat x % 16 ^ x.length ∧
      (∀ k, k + 1 < 4 * x.length → (vec y).getMsbD k = (vec x).getMsbD (k + 1)) ∧
      (vec y).getMsbD (4 * x.length - 1) = false

/-- `SHR1` (R117): bit by bit from the front, each bit moves one place back, the last is discarded and a 0
enters at the front; the length stays `N`. -/
def Obligations.Shr1MovesEveryBitBack : Prop :=
  ∀ (x : List DecSymbol) (s : State), s.params.hasResync = true → x ≠ [] → .other ∉ x →
    ∃ y : List DecSymbol, exec (.shr1 x) s = .next { s with result := .symbols y } ∧
      y.length = x.length ∧ .other ∉ y ∧ hexNat y = hexNat x / 2 ∧
      (∀ k, k + 1 < 4 * x.length → (vec y).getMsbD (k + 1) = (vec x).getMsbD k) ∧
      (vec y).getMsbD 0 = false

/-- `RESYNC` (R120 to R125): its five steps in their order, what it writes to `ADJ` and `ADJLEN`, and
nothing else written. -/
def Obligations.ResyncTakesTheFirstMatchingStep : Prop :=
  ∀ s : State, s.params.hasResync = true → s.presentable = true →
    ∃ t, exec .resync s = .next t ∧ OnlyAdjWritten s t ∧
      let d := hexdecs s.rawString
      let rem := d.drop 4
      let gives (a : List DecSymbol) : Prop :=
        t.result = .adjusted (some a) ∧ t.adjusted = a ∧ t.mem.adjLen = a.length
      let nothing : Prop := t.result = .adjusted none
      let sl := strip5 (shl1 rem)
      let sr := strip5 (shr1 rem)
      (matchSync d = true → gives d) ∧
      (matchSync d = false → fill5 rem = true →
        (matchSync (strip5 rem) = true → gives (strip5 rem)) ∧
        (matchSync (strip5 rem) = false → nothing)) ∧
      (matchSync d = false → fill5 rem = false → fillA rem = true →
        (.other ∈ rem → nothing) ∧
        (.other ∉ rem → matchSync sl = true → gives sl) ∧
        (.other ∉ rem → matchSync sl = false → matchSync sr = true → gives sr) ∧
        (.other ∉ rem → matchSync sl = false → matchSync sr = false → nothing)) ∧
      (matchSync d = false → fill5 rem = false → fillA rem = false → nothing)

/-- The contract of RESYNC (R110): what it returns starts with the syncword; a string that starts with it is
returned unchanged, whatever its length. -/
def Obligations.ResyncReturnsAnAnchoredString : Prop :=
  (∀ d a : List DecSymbol, resync d = some a → a.take 4 = [.hex 3#4, .hex 4#4, .hex 7#4, .hex 5#4]) ∧
  ∀ rest : List DecSymbol, resync (.hex 3#4 :: .hex 4#4 :: .hex 7#4 :: .hex 5#4 :: rest) =
    some (.hex 3#4 :: .hex 4#4 :: .hex 7#4 :: .hex 5#4 :: rest)

/-- At most one of the two corrections succeeds, so their order is immaterial (41_resync.md section 4, the
spec's own inference R127). -/
def Obligations.AtMostOneShiftCorrectionSucceeds : Prop :=
  ∀ rem : List DecSymbol, .other ∉ rem → fillA rem = true →
    matchSync (strip5 (shl1 rem)) = true → matchSync (strip5 (shr1 rem)) = false

/-- A garbled lead-in and a run of at least two fillers are removed from any anchored string (41_resync.md
section 4, the spec's own inference R129 (b); with no filler, RESYNC gives nothing, 90_conflicts.md C2). -/
def Obligations.FillerPreambleIsRemoved : Prop :=
  ∀ (g rest : List DecSymbol) (k : Nat), g.length = 4 → matchSync g = false →
    (2 ≤ k → resync (g ++ List.replicate k (.hex 5#4) ++ [.hex 3#4, .hex 4#4, .hex 7#4, .hex 5#4] ++ rest) =
      some ([.hex 3#4, .hex 4#4, .hex 7#4, .hex 5#4] ++ rest)) ∧
    (k < 2 → resync (g ++ List.replicate k (.hex 5#4) ++ [.hex 3#4, .hex 4#4, .hex 7#4, .hex 5#4] ++ rest) = none)

/-- Shift, then correct, is the identity: a frame behind four garbled symbols and `aa`, shifted left one bit
at fixed width, is recovered exactly (41_resync.md section 4, the spec's own inference R129 (c)). -/
def Obligations.ShiftedFrameIsRecoveredExactly : Prop :=
  ∀ (g frame : List DecSymbol), g.length = 4 → matchSync g = false → .other ∉ frame →
    matchSync frame = true →
    resync (g ++ [.hex 10#4, .hex 10#4] ++ shl1 frame) = some frame

/-- A left correction leaves a 0 in the last bit of the string it returns (41_resync.md section 4, the spec's
own inference R128). -/
def Obligations.LeftCorrectionClearsTheLastBit : Prop :=
  ∀ d : List DecSymbol, matchSync d = false → fillA (d.drop 4) = true → .other ∉ d.drop 4 →
    matchSync (strip5 (shl1 (d.drop 4))) = true →
    ∃ a n, resync d = some a ∧ a.getLast? = some (.hex n) ∧ n.getLsbD 0 = false

/-- The cases of ResyncFailed, exactly (R212), as FRAME reports them; without the RESYNC unit START never
reports it. -/
def Obligations.ResyncFailedExactlyInItsFourCases : Prop :=
  (∀ s : State, s.params.hasResync = true → s.presentable = true →
    ∃ t, exec .frame s = .next t ∧
      let d := hexdecs s.rawString
      let rem := d.drop 4
      (t.status = .resyncFailed ↔
        d.take 4 ≠ [.hex 3#4, .hex 4#4, .hex 7#4, .hex 5#4] ∧
        ((rem.take 2 ≠ [.hex 5#4, .hex 5#4] ∧ rem.take 2 ≠ [.hex 10#4, .hex 10#4]) ∨
         (rem.take 2 = [.hex 5#4, .hex 5#4] ∧ matchSync (strip5 rem) = false) ∨
         (rem.take 2 = [.hex 10#4, .hex 10#4] ∧ .other ∈ rem) ∨
         (rem.take 2 = [.hex 10#4, .hex 10#4] ∧ matchSync (strip5 (shl1 rem)) = false ∧
            matchSync (strip5 (shr1 rem)) = false)))) ∧
  ∀ s t : State, s.params.hasResync = false → exec .start s = .next t → t.done = true →
    t.status ≠ .resyncFailed

/-! ## The field multiplexer -/

/-- The frame vector of R55 (which the spec marks as derived): a window that meets the preconditions of the
selects has exactly one, and a window that does not has none. -/
def Obligations.ReadyWindowHasOneFrameVector : Prop :=
  ∀ adj : List DecSymbol,
    (windowReady adj = true → IsFrameVector adj (frameVector adj) ∧
      ∀ fv, IsFrameVector adj fv → fv = frameVector adj) ∧
    (windowReady adj = false → ∀ fv, ¬ IsFrameVector adj fv)

/-- `SEL.RECEIVER_ID` to `SEL.U6` (R132 to R143): each returns its slice of the frame vector unchanged, and
DECODE puts that slice into the register the rule names. That a select used alone writes nothing, though its
rule names the register, is the model's choice (DESIGN CHOICE, log entry 3, from R33). -/
def Obligations.SelectsReturnTheirSlices : Prop :=
  ∀ (s : State) (fv : BitVec 164), IsFrameVector s.adjusted fv →
    exec .selReceiverId s = .next { s with result := .bits 16 (fv.extractLsb' 132 16) } ∧
    exec .selSenderId s = .next { s with result := .bits 16 (fv.extractLsb' 116 16) } ∧
    exec .selU1 s = .next { s with result := .bits 8 (fv.extractLsb' 108 8) } ∧
    exec .selU2 s = .next { s with result := .bits 8 (fv.extractLsb' 100 8) } ∧
    exec .selU3 s = .next { s with result := .bits 8 (fv.extractLsb' 92 8) } ∧
    exec .selTotalAh s = .next { s with result := .bits 24 (fv.extractLsb' 68 24) } ∧
    exec .selU4 s = .next { s with result := .bits 16 (fv.extractLsb' 52 16) } ∧
    exec .selCurrentA s = .next { s with result := .bits 16 (fv.extractLsb' 36 16) } ∧
    exec .selBattery s = .next { s with result := .bits 8 (fv.extractLsb' 28 8) } ∧
    exec .selU5 s = .next { s with result := .bits 8 (fv.extractLsb' 20 8) } ∧
    exec .selCrc s = .next { s with result := .bits 16 (fv.extractLsb' 4 16) } ∧
    exec .selU6 s = .next { s with result := .bits 4 (fv.extractLsb' 0 4) } ∧
    ∃ t, exec .decode s = .next t ∧
      t.record.receiverId = fv.extractLsb' 132 16 ∧ t.record.senderId = fv.extractLsb' 116 16 ∧
      t.record.u1 = fv.extractLsb' 108 8 ∧ t.record.u2 = fv.extractLsb' 100 8 ∧
      t.record.u3 = fv.extractLsb' 92 8 ∧ t.record.totalAhRaw = fv.extractLsb' 68 24 ∧
      t.record.u4 = fv.extractLsb' 52 16 ∧ t.record.currentARaw = fv.extractLsb' 36 16 ∧
      t.record.battery = fv.extractLsb' 28 8 ∧ t.record.u5 = fv.extractLsb' 20 8 ∧
      t.record.crcRx = fv.extractLsb' 4 16 ∧ t.record.u6 = fv.extractLsb' 0 4

/-- `SEL.SYNCWORD` (R131): the hardwired constant in every state, not the slice; the slice equals it where
the adjusted string is one RESYNC returned. That the host reads `SYNCWORD` in every state, also while `DONE = 0`,
where R28 leaves every output but `DONE` unspecified, is the model's inference (DEDUCED, log entry 11, from R22
and R240). -/
def Obligations.SyncwordSelectIsTheConstant : Prop :=
  (∀ s : State, exec .selSyncword s = .next { s with result := .bits 16 0x3475 } ∧
    hostRead .syncword s = some 0x3475) ∧
  ∀ (d a : List DecSymbol) (fv : BitVec 164), resync d = some a → IsFrameVector a fv →
    fv.extractLsb' 148 16 = 0x3475

/-- `SEL.SPAN` (R144): the 28 nibbles `ADJ[8]` to `ADJ[35]` in order, that is `FV[131:20]`. -/
def Obligations.SpanSelectReturnsTheSpan : Prop :=
  ∀ (s : State) (fv : BitVec 164), IsFrameVector s.adjusted fv →
    exec .selSpan s = .next { s with result := .nibbles (spanOfVector fv) }

/-- The selects partition the frame window: the thirteen slices, put together again in the order of the map,
are the frame vector (42_fieldmux.md, the spec's own inference R145). -/
def Obligations.FieldsPartitionTheWindow : Prop :=
  ∀ (adj : List DecSymbol) (fv : BitVec 164), IsFrameVector adj fv →
    let r := recordOf adj
    fv = (fv.extractLsb' 148 16 ++ r.receiverId ++ r.senderId ++ r.u1 ++ r.u2 ++ r.u3 ++ r.totalAhRaw ++
      r.u4 ++ r.currentARaw ++ r.battery ++ r.u5 ++ r.crcRx ++ r.u6 : BitVec 164)

/-! ## The scale units -/

/-- `SCALE24` (R151): quotient and remainder by 100, exact, in 18 and 7 bits. That `SCALE24` used alone writes
nothing, though its rule names the registers, is the model's choice (DESIGN CHOICE, log entry 3, from R33). -/
def Obligations.Scale24DividesExactly : Prop :=
  ∀ (r : BitVec 24) (s : State), ∃ (q : BitVec 18) (f : BitVec 7),
    exec (.scale24 r) s = .next { s with result := .scaled24 q f } ∧
    q.toNat = r.toNat / 100 ∧ f.toNat = r.toNat % 100 ∧
    r.toNat = 100 * q.toNat + f.toNat ∧ f.toNat ≤ 99 ∧ q.toNat ≤ 167772

/-- `SCALE16` (R152): quotient and remainder by 100, exact, in 10 and 7 bits. That `SCALE16` used alone writes
nothing, though its rule names the registers, is the model's choice (DESIGN CHOICE, log entry 3, from R33). -/
def Obligations.Scale16DividesExactly : Prop :=
  ∀ (r : BitVec 16) (s : State), ∃ (q : BitVec 10) (f : BitVec 7),
    exec (.scale16 r) s = .next { s with result := .scaled16 q f } ∧
    q.toNat = r.toNat / 100 ∧ f.toNat = r.toNat % 100 ∧
    r.toNat = 100 * q.toNat + f.toNat ∧ f.toNat ≤ 99 ∧ q.toNat ≤ 655

/-! ## The CRC generator -/

/-- `CRC.INIT` (R161): the register is `0x1D0F`, which is the checksum of the empty message. -/
def Obligations.CrcInitLoadsTheInitialValue : Prop :=
  (∀ s : State, exec .crcInit s = .next { s with crc := 0x1D0F, result := .none }) ∧
  crcNibs Config.crcInit [] = 0x1D0F

/-- `CRC.BIT` (R162), bit by bit: new bit 0 is the feedback, bits 5 and 12 are the bit below with the
feedback added, every other bit is the bit below. -/
def Obligations.CrcBitShiftsAndAddsThePolynomial : Prop :=
  ∀ (d : BitVec 1) (s : State), ∃ c : BitVec 16,
    exec (.crcBit d) s = .next { s with crc := c, result := .none } ∧
    let fb := s.crc.getLsbD 15 ^^ d.getLsbD 0
    c.getLsbD 0 = fb ∧ c.getLsbD 5 = (s.crc.getLsbD 4 ^^ fb) ∧ c.getLsbD 12 = (s.crc.getLsbD 11 ^^ fb) ∧
    ∀ i, 0 < i → i < 16 → i ≠ 5 → i ≠ 12 → c.getLsbD i = s.crc.getLsbD (i - 1)

/-- `CRC.NIB` in closed form: with `t` the top nibble of the register added to the data nibble, the register
shifts left four places and `t * 0x1021` is added (44_crc16.md, the spec's own inference R163). -/
def Obligations.CrcNibHasItsClosedForm : Prop :=
  ∀ (n : Nib) (s : State),
    let t : Nib := s.crc.extractLsb' 12 4 ^^^ n
    exec (.crcNib n) s = .next { s with
      crc := (s.crc <<< 4) ^^^ (t ++ 0#3 ++ t ++ 0#1 ++ t : BitVec 16), result := .none } ∧
    (t ++ 0#3 ++ t ++ 0#1 ++ t : BitVec 16) = t.setWidth 16 * 0x1021

/-- `CRC.BYTE` equals the common software form: add the byte at the top, then eight times shift left and add
the polynomial where the bit that left was 1 (44_crc16.md, the spec's own inference R164). -/
def Obligations.CrcByteHasItsSoftwareForm : Prop :=
  ∀ (b : Byte) (s : State),
    exec (.crcByte b) s = .next { s with
      crc := (fun c : BitVec 16 => if c.getLsbD 15 then (c <<< 1) ^^^ 0x1021 else c <<< 1)^[8]
        (s.crc ^^^ (b ++ 0#8 : BitVec 16))
      result := .none }

/-- Bytes and nibbles agree: feeding a message's bytes is feeding its nibbles, the high nibble of each byte
first (44_crc16.md, the spec's own inference R166; the pairing is R54). -/
def Obligations.CrcBytesAndNibblesAgree : Prop :=
  ∀ (c : BitVec 16) (bs : List Byte),
    crcBytes c bs = crcNibs c (bs.flatMap fun b => [b.extractLsb' 4 4, b.extractLsb' 0 4])

/-- `CRC.SPAN` (R165): the register is loaded with `0x1D0F` and takes the 28 nibbles of the span in order;
28 zero nibbles give `0x6A0A` and 28 nibbles 15 give `0x0041`. -/
def Obligations.CrcSpanRunsOverTheSpan : Prop :=
  (∀ (s : State) (ns : List Nib), ns.length = 28 → slice s.adjusted 8 28 = ns.map .hex →
    exec .crcSpan s = .next { s with crc := ns.foldl crcNib 0x1D0F, result := .none }) ∧
  (List.replicate 28 (0 : Nib)).foldl crcNib 0x1D0F = 0x6A0A ∧
  (List.replicate 28 (15 : Nib)).foldl crcNib 0x1D0F = 0x0041

/-- The check value: the nine character codes of `123456789` leave `0xE5CC` (44_crc16.md, the spec's own
inference R167; the document states the number). -/
def Obligations.CrcCheckValueOfNineDigits : Prop :=
  crcBytes Config.crcInit [0x31, 0x32, 0x33, 0x34, 0x35, 0x36, 0x37, 0x38, 0x39] = 0xE5CC

/-- The residue: a register fed the two bytes of another value becomes 0 exactly when that value is the
register; so a message followed by its own checksum leaves 0, and a ready frame is Valid exactly when
nibbles 8 to 39 leave 0 (44_crc16.md, the spec's own inference R168). -/
def Obligations.ResidueIsZeroExactlyForTheOwnChecksum : Prop :=
  (∀ c r : BitVec 16, crcBytes c [r.extractLsb' 8 8, r.extractLsb' 0 8] = 0 ↔ r = c) ∧
  ∀ (s : State) (fv : BitVec 164), IsFrameVector s.adjusted fv →
    ∃ t, exec .decode s = .next t ∧
      (t.crcResult = .valid ↔
        crcNibs Config.crcInit ((List.range 32).map fun i => fv.extractLsb' (128 - 4 * i) 4) = 0)

/-! ## The comparator -/

/-- `CLASSIFY` by its arms in order, as integers: the shifted received value is not cut to 16 bits. The
ShiftedLeft arm holds exactly when `R[15] = 0`, `A[15:1] = R[14:0]` and `A[0] = 0`, the ShiftedRight arm
exactly when `A[15] = 0` and `A[14:0] = R[15:1]` (R180 and R181). That `CLASSIFY` used alone returns the class
and leaves `CRC_RESULT` unwritten, against "Flags written: `CRC_RESULT`" of R180, is the model's choice (DESIGN
CHOICE, log entry 3, from R33 and R25). -/
def Obligations.ClassifyComparesTheShiftsUntruncated : Prop :=
  ∀ (a r : BitVec 16) (s : State),
    exec (.classify a r) s = .next { s with
      result := .cls
        (if a.toNat = r.toNat then .valid
         else if a.toNat = 2 * r.toNat then .shiftedLeft
         else if a.toNat = r.toNat / 2 then .shiftedRight
         else .invalid) } ∧
    (a.toNat = 2 * r.toNat ↔
      r.getLsbD 15 = false ∧ a.extractLsb' 1 15 = r.extractLsb' 0 15 ∧ a.getLsbD 0 = false) ∧
    (a.toNat = r.toNat / 2 ↔ a.getLsbD 15 = false ∧ a.extractLsb' 0 15 = r.extractLsb' 1 15)

/-- The order of the second and third arms is immaterial: they hold together only where the first does
(45_classify.md, the spec's own inference R182). -/
def Obligations.ShiftedClassesExcludeEachOther : Prop :=
  ∀ a r : BitVec 16, a.toNat = 2 * r.toNat → a.toNat = r.toNat / 2 → classify a r = .valid

/-! ## DECODE, FRAME, START -/

/-- `DECODE` (R190): a ready window gives the whole record, the two scalings, the computed checksum and the
class, and no `STATUS` and no `DONE`; otherwise the failure, with nothing outside DECODE's own registers
changed. -/
def Obligations.DecodeMakesTheRecord : Prop :=
  (∀ (s : State) (fv : BitVec 164), IsFrameVector s.adjusted fv →
    exec .decode s = .next { s with
      record :=
        { receiverId := fv.extractLsb' 132 16, senderId := fv.extractLsb' 116 16
          u1 := fv.extractLsb' 108 8, u2 := fv.extractLsb' 100 8, u3 := fv.extractLsb' 92 8
          totalAhRaw := fv.extractLsb' 68 24
          totalAhInt := BitVec.ofNat 18 ((fv.extractLsb' 68 24).toNat / 100)
          totalAhFrac := BitVec.ofNat 7 ((fv.extractLsb' 68 24).toNat % 100)
          u4 := fv.extractLsb' 52 16
          currentARaw := fv.extractLsb' 36 16
          currentAInt := BitVec.ofNat 10 ((fv.extractLsb' 36 16).toNat / 100)
          currentAFrac := BitVec.ofNat 7 ((fv.extractLsb' 36 16).toNat % 100)
          battery := fv.extractLsb' 28 8, u5 := fv.extractLsb' 20 8
          crcRx := fv.extractLsb' 4 16, u6 := fv.extractLsb' 0 4 }
      crc := (spanOfVector fv).foldl crcNib 0x1D0F
      crcResult := classify ((spanOfVector fv).foldl crcNib 0x1D0F) (fv.extractLsb' 4 16)
      result := .outcome .ok }) ∧
  (∀ s : State, s.adjusted.length < 41 →
    ∃ t, exec .decode s = .next t ∧ OnlyRecordWritten s t ∧ t.result = .outcome .tooShort) ∧
  (∀ s : State, 41 ≤ s.adjusted.length → .other ∈ s.adjusted.take 41 →
    ∃ t, exec .decode s = .next t ∧ OnlyRecordWritten s t ∧ t.result = .outcome .badHex)

/-- The two checks of DECODE (R191, R193): TooShort exactly below 41 symbols, whatever they are; BadHex
exactly when one of the 41 is non-hexadecimal; symbols from 41 on are not checked. -/
def Obligations.LengthIsTestedBeforeSymbols : Prop :=
  ∀ s : State, ∃ t, exec .decode s = .next t ∧
    (t.result = .outcome .tooShort ↔ s.adjusted.length < 41) ∧
    (t.result = .outcome .badHex ↔
      41 ≤ s.adjusted.length ∧ ∃ i, i < 41 ∧ s.adjusted[i]? = some .other) ∧
    (t.result = .outcome .ok ↔
      41 ≤ s.adjusted.length ∧ ∀ i, i < 41 → s.adjusted[i]? ≠ some .other)

/-- DECODE ignores what stands at index 41 and above (20_memory.md section 3): two states whose first 41
symbols agree get the same record, checksum and class, or the same failure. -/
def Obligations.DecodeIgnoresSymbolsBeyondTheFrame : Prop :=
  ∀ s t : State, 41 ≤ s.adjusted.length → 41 ≤ t.adjusted.length →
    s.adjusted.take 41 = t.adjusted.take 41 →
    ∃ s' t', exec .decode s = .next s' ∧ exec .decode t = .next t' ∧ s'.result = t'.result ∧
      (s'.result = .outcome .ok →
        s'.record = t'.record ∧ s'.crc = t'.crc ∧ s'.crcResult = t'.crcResult)

/-- DECODE does not test the syncword (R195): replacing the first four symbols by any other hexadecimal ones
changes neither the outcome nor the record, and `SYNCWORD` still reads `0x3475` (that it does so while `DONE = 0`
is DEDUCED, log entry 11). -/
def Obligations.DecodeDoesNotTestTheSyncword : Prop :=
  ∀ s t : State, .other ∉ s.adjusted.take 4 → .other ∉ t.adjusted.take 4 →
    s.adjusted.length = t.adjusted.length → s.adjusted.drop 4 = t.adjusted.drop 4 →
    ∃ s' t', exec .decode s = .next s' ∧ exec .decode t = .next t' ∧ s'.result = t'.result ∧
      (s'.result = .outcome .ok →
        s'.record = t'.record ∧ s'.crc = t'.crc ∧ s'.crcResult = t'.crcResult) ∧
      hostRead .syncword t' = some 0x3475

/-- `FRAME` (R194): HEXDECS, RESYNC and DECODE in this order, the failure priority, `STATUS` and `DONE`. -/
def Obligations.FrameResynchronisesThenDecodes : Prop :=
  ∀ s : State, s.params.hasResync = true → s.presentable = true → s.window = none →
    ∃ t, exec .frame s = .next t ∧ EndsTransaction (resync (hexdecs s.rawString)) s t

/-- `START` with no delay (R196, R198): one atomic step from START to `DONE = 1`, FRAME with the RESYNC unit
and DECODE on the decoded raw string without it, where `STATUS = 1` cannot occur. -/
def Obligations.StartPerformsOneTransaction : Prop :=
  ∀ s : State, s.window = none → s.presentable = true → s.params.lat = some 0 →
    ∃ t, exec .start s = .next t ∧
      (s.params.hasResync = true → EndsTransaction (resync (hexdecs s.rawString)) s t) ∧
      (s.params.hasResync = false → EndsTransaction (some (hexdecs s.rawString)) s t ∧
        t.status ≠ .resyncFailed)

/-- The outputs after a transaction are a function of the string on the port (46_decode.md section 3, the
spec's own inference R197): two blocks of the same instance, whatever they did before, show the host the
same at every output. -/
def Obligations.TransactionDependsOnItsInputOnly : Prop :=
  ∀ s t : State, s.params = t.params → s.params.lat = some 0 →
    s.presentable = true → t.presentable = true → s.window = none → t.window = none →
    s.rawString = t.rawString →
    ∃ s' t', exec .start s = .next s' ∧ exec .start t = .next t' ∧ s'.done = true ∧ SameOutputs s' t'

/-- Every transaction ends, and its delay does not matter (60_exceptions.md, the spec's own inference R219;
that `LAT` counts steps is the model's choice, log entry 4): from START, `DONE` stays 0 for the steps of the
delay, then is 1, and the outputs are those of the same block with no delay. -/
def Obligations.EveryTransactionEndsWithTheSameOutputs : Prop :=
  ∀ s : State, s.rst = false → s.window = none → s.presentable = true →
    ∃ n t u, (∀ m, s.params.lat = some m → n = m) ∧
      runSteps (n + 1) s.assertStart = .next t ∧ t.done = true ∧
      (∀ k, 0 < k → k ≤ n → ∃ v, runSteps k s.assertStart = .next v ∧ v.done = false) ∧
      exec .start { s with params := { s.params with lat := some 0 } } = .next u ∧ SameOutputs t u

/-- After a failure (R216): `DONE = 1` and the code; nothing of a record can be read, `CRC` and `CRC_RESULT`
included; the adjusted string can be read after TooShort and BadHex and not after ResyncFailed; nothing
is saved and the ports stay. -/
def Obligations.FailureShowsItsCodeAndNoRecord : Prop :=
  ∀ s t : State, s.params.lat = some 0 → exec .start s = .next t → t.status ≠ .ok →
    hostRead .done t = some 1 ∧
    hostRead .status t = some (match t.status with
      | .ok => 0 | .resyncFailed => 1 | .tooShort => 2 | .badHex => 3) ∧
    (∀ o ∈ [Output.receiverId, .senderId, .u1, .u2, .u3, .totalAhRaw, .totalAhInt, .totalAhFrac, .u4,
        .currentARaw, .currentAInt, .currentAFrac, .battery, .u5, .crcRx, .u6, .crcResult, .crc],
      hostRead o t = none) ∧
    (t.status = .resyncFailed → hostRead .adjLen t = none ∧ ∀ i, hostReadAdj i t = none) ∧
    (t.status ≠ .resyncFailed → ∃ a, (∀ i, hostReadAdj i t = a[i]?) ∧ hostRead .adjLen t = some a.length ∧
      (s.params.hasResync = true → resync (hexdecs s.rawString) = some a) ∧
      (s.params.hasResync = false → hexdecs s.rawString = a)) ∧
    t.window = none ∧ t.mem.raw = s.mem.raw ∧ t.mem.rawLen = s.mem.rawLen

/-! ## Reset and hazards -/

/-- `RESET` (R199, R240): from any state, `DONE = 0`, `STATUS = 0`, `CRC = 0x1D0F`, `SYNCWORD` reads
`0x3475`; the ports and the parameters stay, and a transaction in progress is gone. -/
def Obligations.ResetPutsTheBlockInItsResetState : Prop :=
  (∀ (p : BitVec 1) (s : State), ∃ t, exec (.reset p) s = .next t ∧
    t.done = false ∧ t.status = .ok ∧ t.crc = 0x1D0F ∧ hostRead .syncword t = some 0x3475 ∧
    t.window = none ∧ t.params = s.params ∧ t.mem.raw = s.mem.raw ∧ t.mem.rawLen = s.mem.rawLen ∧
    t.rst = s.rst ∧ t.start = s.start ∧ t.bench = s.bench) ∧
  State.reset.done = false ∧ State.reset.status = .ok ∧ State.reset.crc = 0x1D0F ∧
  hostRead .syncword State.reset = some 0x3475

/-- RST at any time (R241): it abandons a transaction in progress, no result of it becomes visible, and it
wins over START. That the step takes the assertion of RST and START away is the model's choice (DESIGN CHOICE,
log entry 8); that `REC_VALID` and `SYNCWORD` can be read while `DONE = 0` is its inference (DEDUCED, log
entry 11). -/
def Obligations.ResetWinsAndAbandons : Prop :=
  ∀ s : State, s.rst = true → ∃ t, step s = .next t ∧
    t.done = false ∧ t.status = .ok ∧ t.crc = 0x1D0F ∧ t.window = none ∧
    (∀ o, o ≠ .done → o ≠ .syncword → o ≠ .recValid → hostRead o t = none) ∧
    hostRead .done t = some 0 ∧ hostRead .recValid t = some 0 ∧ (∀ i, hostReadAdj i t = none) ∧
    t.rst = false ∧ t.start = false

/-- The two hazards of a transaction in progress (R244, R245): a string changed before DONE, and a START
before DONE, are given no meaning. -/
def Obligations.HazardsOfATransactionAreRefused : Prop :=
  (∀ (s : State) (w : Window), s.rst = false → s.start = true → s.window = some w →
    step s = .refused .startDuringTransaction) ∧
  ∀ (s : State) (w : Window), s.rst = false → s.start = false → s.window = some w →
    (s.presentable = false ∨ s.rawString ≠ w.sampled) → step s = .refused .inputChanged

/-- A string longer than `LMAX` cannot be presented (10_state.md section 2): the operations that read the
raw string give it no meaning, `HEXDECS` and `START` in every instance, `RESYNC` and `FRAME` where the unit is
present (the refusal by name is log entry 14). -/
def Obligations.TooLongStringsAreRefused : Prop :=
  ∀ s : State, s.params.lmax < s.mem.rawLen →
    exec .hexdecs s = .refused .rawNotPresentable ∧
    (s.window = none → exec .start s = .refused .rawNotPresentable) ∧
    (s.params.hasResync = true →
      exec .resync s = .refused .rawNotPresentable ∧ exec .frame s = .refused .rawNotPresentable)

/-- An operand of a length the rules do not admit has no meaning: `HEXINT` of other than 1, 2, 4 or 6
symbols, a shift of none (40_hexdec.md and 41_resync.md; the refusal is the model's choice, log entry 12). -/
def Obligations.IllShapedOperandsAreRefused : Prop :=
  (∀ (x : List DecSymbol) (s : State), (Instr.hexint x).wellFormed = false →
    exec (.hexint x) s = .refused .operandShape ∧
      x.length ≠ 1 ∧ x.length ≠ 2 ∧ x.length ≠ 4 ∧ x.length ≠ 6) ∧
  ∀ s : State, s.params.hasResync = true →
    exec (.shl1 []) s = .refused .operandShape ∧ exec (.shr1 []) s = .refused .operandShape

/-- Where the RESYNC unit is absent, its operations and FRAME are refused by name, and START still completes
(the refusal is the model's choice, log entry 10). -/
def Obligations.AbsentUnitIsRefused : Prop :=
  ∀ (s : State) (x : List DecSymbol), s.params.hasResync = false →
    (∀ i ∈ [Instr.matchsync x, .fill5 x, .filla x, .strip5 x, .shl1 x, .shr1 x, .resync, .frame],
      exec i s = .refused .resyncAbsent) ∧
    (s.window = none → s.presentable = true → ∃ t, exec .start s = .next t)

/-- Where a rule gives an effect and no value (a non-hexadecimal symbol under `HEXINT`, `SHL1`, `SHR1`; a
window or a span that is not ready under a select or `CRC.SPAN`) the operation completes with some value of
the stated width, and nothing else changes (the model's choice, log entry 9). Only the shifts need the RESYNC
unit. -/
def Obligations.UnstatedValuesStillComplete : Prop :=
  ∀ (s : State) (x : List DecSymbol),
    (.other ∈ x → (Instr.hexint x).wellFormed = true → ∃ v : BitVec (4 * x.length),
      exec (.hexint x) s =
        .next { s with result := .bits (4 * x.length) v, draws := s.draws + 1 }) ∧
    (s.params.hasResync = true → .other ∈ x → ∀ i ∈ [Instr.shl1 x, .shr1 x],
      ∃ y : List DecSymbol, y.length = x.length ∧ .other ∉ y ∧
        exec i s = .next { s with result := .symbols y, draws := s.draws + 1 }) ∧
    (windowReady s.adjusted = false →
      (∀ i ∈ [Instr.selReceiverId, .selSenderId, .selU4, .selCurrentA, .selCrc], ∃ v : BitVec 16,
        exec i s = .next { s with result := .bits 16 v, draws := s.draws + 1 }) ∧
      (∀ i ∈ [Instr.selU1, .selU2, .selU3, .selBattery, .selU5], ∃ v : BitVec 8,
        exec i s = .next { s with result := .bits 8 v, draws := s.draws + 1 }) ∧
      (∃ v : BitVec 24,
        exec .selTotalAh s = .next { s with result := .bits 24 v, draws := s.draws + 1 }) ∧
      (∃ v : BitVec 4, exec .selU6 s = .next { s with result := .bits 4 v, draws := s.draws + 1 }) ∧
      ∃ ns : List Nib, ns.length = 28 ∧
        exec .selSpan s = .next { s with result := .nibbles ns, draws := s.draws + 1 }) ∧
    (spanReady s.adjusted = false → ∃ c : BitVec 16,
      exec .crcSpan s = .next { s with crc := c, result := .none, draws := s.draws + 1 })

/-! ## Flags, outputs and invariants -/

/-- The codes of `STATUS` (R76): each name has its code, and each code its name. -/
def Obligations.StatusCodesAreTheFour : Prop :=
  Status.code .ok = 0b00 ∧ Status.code .resyncFailed = 0b01 ∧ Status.code .tooShort = 0b10 ∧
  Status.code .badHex = 0b11 ∧ (∀ o, Status.ofCode o.code = o) ∧ ∀ c, (Status.ofCode c).code = c

/-- The codes of `CRC_RESULT` (R77): each name has its code, and each code its name. -/
def Obligations.ClassCodesAreTheFour : Prop :=
  CrcClass.code .invalid = 0b00 ∧ CrcClass.code .valid = 0b01 ∧ CrcClass.code .shiftedLeft = 0b10 ∧
  CrcClass.code .shiftedRight = 0b11 ∧ (∀ o, CrcClass.ofCode o.code = o) ∧
  ∀ c, (CrcClass.ofCode c).code = c

/-- No operation other than START, DECODE, FRAME and reset writes a flag or a record register, and DECODE
writes neither `DONE` nor `STATUS`; only these and the operations of the generator write `CRC`; no operation
writes `RAW`, `RAWLEN`, a parameter, a pin or the bench (10_state.md sections 4 and 6). A step of a transaction in
progress writes none of these either, and sets `DONE` exactly when it ends the transaction. A whole step keeps
the parameters and the string on the port; that it leaves the pins at 0 and takes a bench request away is the
model's choice (DESIGN CHOICE, log entries 1 and 8). -/
def Obligations.OnlyTheNamedOperationsWriteFlags : Prop :=
  (∀ (i : Instr) (s t : State), exec i s = .next t →
    t.params = s.params ∧ t.mem.raw = s.mem.raw ∧ t.mem.rawLen = s.mem.rawLen ∧
    t.rst = s.rst ∧ t.start = s.start ∧ t.bench = s.bench ∧
    (i ≠ .start → i ≠ .frame → (∀ p, i ≠ .reset p) →
      t.done = s.done ∧ t.status = s.status ∧
      (i ≠ .decode → t.crcResult = s.crcResult ∧ t.record = s.record ∧
        (i ≠ .crcInit → (∀ d, i ≠ .crcBit d) → (∀ n, i ≠ .crcNib n) → (∀ b, i ≠ .crcByte b) →
          i ≠ .crcSpan → t.crc = s.crc) ∧
        (i ≠ .resync → SameBlock { s with crc := t.crc } t)))) ∧
  (∀ (w : Window) (s t : State), tick w s = .next t →
    t.params = s.params ∧ t.mem.raw = s.mem.raw ∧ t.mem.rawLen = s.mem.rawLen ∧
    t.rst = s.rst ∧ t.start = s.start ∧ t.bench = s.bench ∧
    (w.left = 0 → t.done = true ∧ t.window = none) ∧
    (∀ n, w.left = n + 1 → t.done = s.done ∧ t.window = some { w with left := n })) ∧
  ∀ s t : State, step s = .next t →
    t.params = s.params ∧ t.mem.raw = s.mem.raw ∧ t.mem.rawLen = s.mem.rawLen ∧
    t.rst = false ∧ t.start = false ∧
    t.bench = if s.rst || s.start || s.window.isSome then s.bench else []

/-- What the host can read, when, and which value (R28, R26). `DONE` always; `STATUS` exactly with `DONE = 1`, by
its code (R76); the record, `CRC` and `CRC_RESULT` (by its code, R77) exactly with `DONE = 1` and `STATUS = 0`,
each output its own register; `ADJ` below `ADJLEN`, and `ADJLEN`, exactly with `DONE = 1` and `STATUS` other than
1. That the derived `REC_VALID` and the hardwired `SYNCWORD` can be read without `DONE` is the model's inference,
not R28's words (DEDUCED, log entry 11). -/
def Obligations.OutputsAreReadableExactlyWhenValid : Prop :=
  ∀ s : State,
    hostRead .done s = some (if s.done = true then 1 else 0) ∧
    hostRead .syncword s = some 0x3475 ∧
    hostRead .recValid s = some (if s.done = true ∧ s.status = .ok then 1 else 0) ∧
    ((hostRead .status s).isSome = true ↔ s.done = true) ∧
    (s.done = true → hostRead .status s = some s.status.code.toNat) ∧
    (∀ o ∈ [Output.receiverId, .senderId, .u1, .u2, .u3, .totalAhRaw, .totalAhInt, .totalAhFrac, .u4,
        .currentARaw, .currentAInt, .currentAFrac, .battery, .u5, .crcRx, .u6, .crcResult, .crc],
      (hostRead o s).isSome = true ↔ s.done = true ∧ s.status = .ok) ∧
    (s.done = true → s.status = .ok →
      hostRead .receiverId s = some s.record.receiverId.toNat ∧
      hostRead .senderId s = some s.record.senderId.toNat ∧
      hostRead .u1 s = some s.record.u1.toNat ∧
      hostRead .u2 s = some s.record.u2.toNat ∧
      hostRead .u3 s = some s.record.u3.toNat ∧
      hostRead .totalAhRaw s = some s.record.totalAhRaw.toNat ∧
      hostRead .totalAhInt s = some s.record.totalAhInt.toNat ∧
      hostRead .totalAhFrac s = some s.record.totalAhFrac.toNat ∧
      hostRead .u4 s = some s.record.u4.toNat ∧
      hostRead .currentARaw s = some s.record.currentARaw.toNat ∧
      hostRead .currentAInt s = some s.record.currentAInt.toNat ∧
      hostRead .currentAFrac s = some s.record.currentAFrac.toNat ∧
      hostRead .battery s = some s.record.battery.toNat ∧
      hostRead .u5 s = some s.record.u5.toNat ∧
      hostRead .crcRx s = some s.record.crcRx.toNat ∧
      hostRead .u6 s = some s.record.u6.toNat ∧
      hostRead .crcResult s = some s.crcResult.code.toNat ∧
      hostRead .crc s = some s.crc.toNat) ∧
    ((hostRead .adjLen s).isSome = true ↔ s.done = true ∧ s.status ≠ .resyncFailed) ∧
    (∀ i, (hostReadAdj i s).isSome = true ↔
      (s.done = true ∧ s.status ≠ .resyncFailed) ∧ i < s.adjusted.length) ∧
    (s.done = true → s.status ≠ .resyncFailed →
      hostRead .adjLen s = some s.mem.adjLen ∧ ∀ i, hostReadAdj i s = s.adjusted[i]?)

/-- The buffers keep their form under every operation and every step: `LMAX` elements each, both lengths at
most `LMAX` (10_state.md sections 2 and 3). -/
def Obligations.BuffersKeepTheirForm : Prop :=
  (∀ (i : Instr) (s t : State), s.memWf = true → exec i s = .next t → t.memWf = true) ∧
  ∀ s t : State, s.memWf = true → step s = .next t → t.memWf = true

/-- What the host sees stays consistent: every step keeps `State.HostInv`, from every state that has it.
In particular a readable record is always the record of the adjusted string beside it, and with the RESYNC
unit that string is anchored (10_state.md section 4 and 46_decode.md). -/
def Obligations.StepKeepsTheHostInvariant : Prop :=
  ∀ s t : State, s.HostInv → step s = .next t → t.HostInv

/-- The invariant holds right after reset, and whatever string of at most `LMAX` characters the host then
presents, asserting START or RST or neither. -/
def Obligations.HostInvariantAtResetAndUnderTheHost : Prop :=
  State.reset.HostInv ∧
  ∀ (s : State) (raw : List Byte), s.HostInv → raw.length ≤ s.params.lmax →
    (s.present raw).HostInv ∧ (s.present raw).rawString = raw ∧ (s.present raw).presentable = true ∧
    s.assertStart.HostInv ∧ s.assertRst.HostInv
end

