-- ==== Sys2Proof/Laws/Encoding.lean ====
section
/-! SUPPORT. What each operand reader of the decoder answers, and that the bytes of a sequence are read back. -/

namespace Sys2Proof.Laws

open Sys2Proof

theorem symbolOfByte_byteOfSymbol (y : DecSymbol) : symbolOfByte (byteOfSymbol y) = some y := by
  cases y with
  | hex n => revert n; decide
  | other => decide

theorem byteOfSymbol_of_symbolOfByte {b : Byte} {y : DecSymbol} (h : symbolOfByte b = some y) :
    byteOfSymbol y = b := by
  unfold symbolOfByte at h
  split at h
  · cases h; assumption
  · cases h

theorem symbolsOfBytes_map (x : List DecSymbol) : symbolsOfBytes (x.map byteOfSymbol) = some x := by
  induction x with
  | nil => rfl
  | cons y ys ih => simp [symbolsOfBytes, symbolOfByte_byteOfSymbol, ih]

theorem map_of_symbolsOfBytes {bs : List Byte} {x : List DecSymbol} (h : symbolsOfBytes bs = some x) :
    x.map byteOfSymbol = bs := by
  induction bs generalizing x with
  | nil => cases h; rfl
  | cons b bs ih =>
    unfold symbolsOfBytes at h
    split at h
    · next y ys hy hys =>
      cases h
      rw [List.map_cons, byteOfSymbol_of_symbolOfByte hy, ih hys]
    · cases h

/-- A sequence operand is read exactly from its bytes, when its shape is legal. -/
theorem readSymbols_ok_iff (f : List DecSymbol → Instr) (bs : List Byte) (i : Instr) :
    readSymbols f bs = .ok i ↔ ∃ x, i = f x ∧ (f x).wellFormed = true ∧ x.map byteOfSymbol = bs := by
  constructor
  · intro h
    unfold readSymbols at h
    split at h
    · next x hx =>
      split at h
      · cases h; exact ⟨x, rfl, ‹_›, map_of_symbolsOfBytes hx⟩
      · cases h
    · cases h
  · rintro ⟨x, rfl, hw, rfl⟩
    simp [readSymbols, symbolsOfBytes_map, hw]

theorem readNothing_ok_iff (j : Instr) (bs : List Byte) (i : Instr) :
    readNothing j bs = .ok i ↔ i = j ∧ bs = [] := by
  cases bs <;> simp [readNothing, eq_comm]

/-- A short operand is read exactly from the byte that holds it, zeros above. -/
theorem readBits_ok_iff (w : Nat) (hw : w ≤ 8) (f : BitVec w → Instr) (bs : List Byte) (i : Instr) :
    readBits w f bs = .ok i ↔ ∃ v : BitVec w, i = f v ∧ bs = [v.setWidth 8] := by
  constructor
  · intro h
    rcases bs with _ | ⟨b, _ | ⟨c, t⟩⟩
    · cases h
    · by_cases hb : b.toNat < 2 ^ w
      · have e : readBits w f [b] = .ok (f (b.setWidth w)) := if_pos hb
        rw [e] at h
        cases h
        refine ⟨b.setWidth w, rfl, ?_⟩
        congr 1
        apply BitVec.eq_of_toNat_eq
        simp [Nat.mod_eq_of_lt hb, Nat.mod_eq_of_lt b.isLt]
      · have e : readBits w f [b] = .error .bitsAboveOperand := if_neg hb
        rw [e] at h
        cases h
    · cases h
  · rintro ⟨v, rfl, rfl⟩
    have h1 : 2 ^ w ≤ 2 ^ 8 := Nat.pow_le_pow_right (by decide) hw
    have h2 : v.toNat % 2 ^ 8 = v.toNat := Nat.mod_eq_of_lt (lt_of_lt_of_le v.isLt h1)
    have h3 : (v.setWidth 8).setWidth w = v := by
      apply BitVec.eq_of_toNat_eq
      rw [BitVec.toNat_setWidth, BitVec.toNat_setWidth, h2, Nat.mod_eq_of_lt v.isLt]
    have h4 : (v.setWidth 8).toNat < 2 ^ w := by rw [BitVec.toNat_setWidth, h2]; exact v.isLt
    simp only [readBits, if_pos h4, h3]

end Sys2Proof.Laws
end

