-- ==== Sys2Proof/Laws/Sequences.lean ====
section
/-! SUPPORT. What the operand forms and the sequence operations of the RESYNC unit are, said once: the
positional value of a sequence, the vector view and its inverse, slices, and the matchers as equations. -/

namespace Sys2Proof.Laws

open Sys2Proof Sys2Proof.Machine

/-! ## Symbols -/

theorem isNib_iff (y : DecSymbol) (n : Nib) : y.isNib n = true ↔ y = .hex n := by
  cases y <;> simp [DecSymbol.isNib]

theorem allOk_iff (x : List DecSymbol) : allOk x = true ↔ DecSymbol.other ∉ x := by
  simp only [allOk, List.all_eq_true]
  refine ⟨fun h hm => by simpa [DecSymbol.ok] using h _ hm, fun h y hy => ?_⟩
  cases y with
  | hex n => rfl
  | other => exact absurd hy h

theorem hexdecs_length (raw : List Byte) : (hexdecs raw).length = raw.length := by simp [hexdecs]

/-! ## The positional value of a sequence (R103) -/

theorem hexNat_foldl (x : List DecSymbol) (v : Nat) :
    x.foldl (fun v y => 16 * v + y.nib.toNat) v = v * 16 ^ x.length + hexNat x := by
  induction x generalizing v with
  | nil => simp [hexNat]
  | cons y ys ih =>
    rw [hexNat, List.foldl_cons, List.foldl_cons, ih, ih, List.length_cons, pow_succ]
    ring

theorem hexNat_append (x y : List DecSymbol) :
    hexNat (x ++ y) = hexNat x * 16 ^ y.length + hexNat y := by
  rw [hexNat, List.foldl_append, hexNat_foldl]
  rfl

theorem hexNat_cons (y : DecSymbol) (x : List DecSymbol) :
    hexNat (y :: x) = y.nib.toNat * 16 ^ x.length + hexNat x := by
  rw [hexNat, List.foldl_cons, hexNat_foldl]
  simp

theorem hexNat_lt (x : List DecSymbol) : hexNat x < 16 ^ x.length := by
  induction x with
  | nil => simp [hexNat]
  | cons y ys ih =>
    rw [hexNat_cons, List.length_cons, pow_succ]
    have := y.nib.isLt
    nlinarith

theorem two_pow_nibbles (n : Nat) : 2 ^ (4 * n) = 16 ^ n := by
  rw [pow_mul]
  norm_num

/-- The value of a slice, read out of the value of the whole. -/
theorem hexNat_slice (x : List DecSymbol) (a n : Nat) (h : a + n ≤ x.length) :
    hexNat (slice x a n) = hexNat x / 16 ^ (x.length - a - n) % 16 ^ n := by
  have e : x = (x.take a ++ slice x a n) ++ (x.drop a).drop n := by
    rw [slice, List.append_assoc, List.take_append_drop, List.take_append_drop]
  have hn : (slice x a n).length = n := by simp [slice]; omega
  have hc : ((x.drop a).drop n).length = x.length - a - n := by simp; omega
  have h1 := hexNat_lt ((x.drop a).drop n)
  have h2 := hexNat_lt (slice x a n)
  conv_rhs => rw [e]
  rw [hexNat_append, hexNat_append, hn] at *
  rw [hc] at *
  rw [Nat.add_comm, ← e, Nat.add_mul_div_right _ _ (by positivity), Nat.div_eq_of_lt h1, Nat.zero_add,
    Nat.add_comm, Nat.add_mul_mod_self_right, Nat.mod_eq_of_lt h2]

/-! ## The vector view (R114) -/

theorem vec_toNat (x : List DecSymbol) : (vec x).toNat = hexNat x := by
  rw [vec, hexInt, BitVec.toNat_ofNat, two_pow_nibbles]
  exact Nat.mod_eq_of_lt (hexNat_lt x)

theorem memRead_toNat (adj : List DecSymbol) (a n : Nat) (h : a + n ≤ adj.length) :
    (memRead adj a n).toNat = hexNat (slice adj a n) := by
  have hn : (slice adj a n).length = n := by simp [slice]; omega
  have := hexNat_lt (slice adj a n)
  rw [hn] at this
  rw [memRead, BitVec.toNat_ofNat, two_pow_nibbles]
  exact Nat.mod_eq_of_lt this

/-- Nibble `i` of a hexadecimal sequence, read out of its vector. -/
theorem getElem_vec (x : List DecSymbol) (hx : .other ∉ x) (i : Nat) (hi : i < x.length) :
    x[i]? = some (.hex ((vec x).extractLsb' (4 * (x.length - 1 - i)) 4)) := by
  have hs : slice x i 1 = [x[i]] := by simp [slice, List.take_one, List.head?_drop, hi]
  have h := hexNat_slice x i 1 hi
  rw [hs, hexNat_cons] at h
  rw [List.getElem?_eq_getElem hi]
  cases hh : x[i] with
  | other => exact absurd (hh ▸ List.getElem_mem hi) hx
  | hex n =>
    congr 2
    apply BitVec.eq_of_toNat_eq
    rw [hh] at h
    simp only [DecSymbol.nib, List.length_nil, pow_zero, mul_one, hexNat, List.foldl_nil, add_zero,
      pow_one] at h
    rw [h, BitVec.extractLsb'_toNat, vec_toNat, Nat.shiftRight_eq_div_pow, two_pow_nibbles,
      Nat.sub_right_comm]
    rfl

theorem nibs_length (n : Nat) (v : BitVec (4 * n)) : (nibs n v).length = n := by simp [nibs]

theorem other_notMem_nibs (n : Nat) (v : BitVec (4 * n)) : .other ∉ nibs n v := by simp [nibs]

theorem getElem_nibs (n : Nat) (v : BitVec (4 * n)) (i : Nat) (hi : i < n) :
    (nibs n v)[i]? = some (.hex (v.extractLsb' (4 * (n - 1 - i)) 4)) := by
  simp [nibs, hi]

/-- `NIBS` undoes `VEC`. -/
theorem nibs_vec (x : List DecSymbol) (hx : .other ∉ x) : nibs x.length (vec x) = x := by
  apply List.ext_getElem?
  intro i
  by_cases hi : i < x.length
  · rw [getElem_nibs _ _ _ hi, getElem_vec x hx i hi]
  · rw [List.getElem?_eq_none (by simpa [nibs] using hi), List.getElem?_eq_none (by simpa using hi)]

/-- A sequence is determined by its length and its value. -/
theorem eq_nibs_of_hexNat (x : List DecSymbol) (hx : .other ∉ x) (n : Nat) (v : BitVec (4 * n))
    (hl : x.length = n) (hv : hexNat x = v.toNat) : x = nibs n v := by
  subst hl
  have e : vec x = v := BitVec.eq_of_toNat_eq ((vec_toNat x).trans hv)
  rw [← e, nibs_vec x hx]

theorem hexNat_digits (n m : Nat) (h : m < 16 ^ n) :
    hexNat ((List.range n).map fun i => .hex (BitVec.ofNat 4 (m / 16 ^ (n - 1 - i)))) = m := by
  induction n generalizing m with
  | zero =>
    have : m = 0 := by simpa using h
    simp [hexNat, this]
  | succ n ih =>
    rw [List.range_succ, List.map_append, hexNat_append]
    have e : ((List.range n).map fun i => DecSymbol.hex (BitVec.ofNat 4 (m / 16 ^ (n + 1 - 1 - i)))) =
        (List.range n).map fun i => DecSymbol.hex (BitVec.ofNat 4 (m / 16 / 16 ^ (n - 1 - i))) := by
      apply List.map_congr_left
      intro i hi
      have hi := List.mem_range.1 hi
      rw [Nat.div_div_eq_div_mul, ← pow_succ']
      congr 4
      omega
    rw [e, ih (m / 16) (by rw [pow_succ] at h; omega)]
    simp [hexNat, DecSymbol.nib]
    omega

/-- `VEC` undoes `NIBS`. -/
theorem hexNat_nibs (n : Nat) (v : BitVec (4 * n)) : hexNat (nibs n v) = v.toNat := by
  conv_rhs => rw [← hexNat_digits n v.toNat (by rw [← two_pow_nibbles]; exact v.isLt)]
  congr 1
  apply List.map_congr_left
  intro i _
  congr 1
  apply BitVec.eq_of_toNat_eq
  simp [Nat.shiftRight_eq_div_pow, two_pow_nibbles]

theorem vec_nibs (n : Nat) (v : BitVec (4 * n)) : (vec (nibs n v)).toNat = v.toNat := by
  rw [vec_toNat, hexNat_nibs]

/-! ## The frame window (R55, R130) -/

theorem windowReady_iff (adj : List DecSymbol) :
    windowReady adj = true ↔ 41 ≤ adj.length ∧ .other ∉ adj.take 41 := by
  rw [windowReady, Bool.and_eq_true, decide_eq_true_eq, allOk_iff]
  rfl

theorem spanReady_iff (adj : List DecSymbol) :
    spanReady adj = true ↔ 36 ≤ adj.length ∧ .other ∉ slice adj 8 28 := by
  rw [spanReady, Bool.and_eq_true, decide_eq_true_eq, allOk_iff]
  rfl

/-! ## The matchers (R111 to R113) -/

theorem matchSync_iff (x : List DecSymbol) :
    matchSync x = true ↔ x.take 4 = [.hex 3#4, .hex 4#4, .hex 7#4, .hex 5#4] := by
  rcases x with _ | ⟨a, _ | ⟨b, _ | ⟨c, _ | ⟨d, e⟩⟩⟩⟩ <;> simp [matchSync, isNib_iff, and_assoc]

theorem startsWithRun_iff (n : Nib) (x : List DecSymbol) :
    startsWithRun n x = true ↔ x.take 2 = [.hex n, .hex n] := by
  rcases x with _ | ⟨a, _ | ⟨b, c⟩⟩ <;> simp [startsWithRun, Config.fillerMinRun, isNib_iff]

theorem fill5_iff (x : List DecSymbol) : fill5 x = true ↔ x.take 2 = [.hex 5#4, .hex 5#4] :=
  startsWithRun_iff _ x

theorem fillA_iff (x : List DecSymbol) : fillA x = true ↔ x.take 2 = [.hex 10#4, .hex 10#4] :=
  startsWithRun_iff _ x

/-! ## STRIP5 and the one-bit shifts (R115 to R117) -/

theorem strip5_replicate (k : Nat) (x : List DecSymbol) :
    strip5 (List.replicate k (.hex 5#4) ++ x) = strip5 x := by
  induction k with
  | zero => rfl
  | succ k ih => simp [List.replicate_succ, strip5, DecSymbol.isNib, ih]

theorem strip5_of_anchored (x : List DecSymbol) (h : matchSync x = true) : strip5 x = x := by
  rcases x with _ | ⟨a, x⟩
  · rfl
  · rw [matchSync_iff, List.take_succ_cons] at h
    rw [(List.cons.inj h).1]
    rfl

theorem strip5_suffix (x : List DecSymbol) : strip5 x <:+ x := by
  induction x with
  | nil => exact List.suffix_refl _
  | cons y ys ih =>
    rw [strip5]
    split
    · exact ih.trans (List.suffix_cons y ys)
    · exact List.suffix_refl _

theorem shl1_length (x : List DecSymbol) : (shl1 x).length = x.length := nibs_length _ _

theorem shr1_length (x : List DecSymbol) : (shr1 x).length = x.length := nibs_length _ _

theorem hexNat_shl1 (x : List DecSymbol) : hexNat (shl1 x) = 2 * hexNat x % 16 ^ x.length := by
  rw [shl1, hexNat_nibs, BitVec.toNat_shiftLeft, vec_toNat, two_pow_nibbles, Nat.shiftLeft_eq, pow_one, Nat.mul_comm]

theorem hexNat_shr1 (x : List DecSymbol) : hexNat (shr1 x) = hexNat x / 2 := by
  rw [shr1, hexNat_nibs, BitVec.toNat_ushiftRight, vec_toNat, Nat.shiftRight_eq_div_pow, pow_one]

/-- What RESYNC returns is no longer than what it is given. -/
theorem resync_length_le (d a : List DecSymbol) (h : resync d = some a) : a.length ≤ d.length := by
  have hs : ∀ x : List DecSymbol, (strip5 x).length ≤ x.length := fun x => (strip5_suffix x).length_le
  have h0 : (d.drop Config.leadDrop).length ≤ d.length := by simp
  have h1 := hs (d.drop Config.leadDrop)
  have h2 := hs (shl1 (d.drop Config.leadDrop))
  have h3 := hs (shr1 (d.drop Config.leadDrop))
  rw [shl1_length] at h2
  rw [shr1_length] at h3
  simp only [resync, resyncRemainder] at h
  repeat' split at h
  all_goals first | (cases h; done) | (cases h; omega)

/-! ## The CRC generator (R162 to R165) -/

theorem crcNibs_append (c : BitVec 16) (x y : List Nib) :
    crcNibs c (x ++ y) = crcNibs (crcNibs c x) y := List.foldl_append

theorem crcBytes_append (c : BitVec 16) (x y : List Byte) :
    crcBytes c (x ++ y) = crcBytes (crcBytes c x) y := List.foldl_append

end Sys2Proof.Laws
end

