-- ==== Sys2Proof/Laws/State.lean ====
section
/-! SUPPORT. One lemma for each field of State under each update of it, so that no later proof unfolds one. -/

namespace Sys2Proof.Machine

variable (s : State)

/-! ### `State.returns` -/

@[simp] theorem returns_params (r : OpResult) : (s.returns r).params = s.params := rfl
@[simp] theorem returns_rst (r : OpResult) : (s.returns r).rst = s.rst := rfl
@[simp] theorem returns_start (r : OpResult) : (s.returns r).start = s.start := rfl
@[simp] theorem returns_mem (r : OpResult) : (s.returns r).mem = s.mem := rfl
@[simp] theorem returns_record (r : OpResult) : (s.returns r).record = s.record := rfl
@[simp] theorem returns_crc (r : OpResult) : (s.returns r).crc = s.crc := rfl
@[simp] theorem returns_done (r : OpResult) : (s.returns r).done = s.done := rfl
@[simp] theorem returns_status (r : OpResult) : (s.returns r).status = s.status := rfl
@[simp] theorem returns_crcResult (r : OpResult) : (s.returns r).crcResult = s.crcResult := rfl
@[simp] theorem returns_window (r : OpResult) : (s.returns r).window = s.window := rfl
@[simp] theorem returns_bench (r : OpResult) : (s.returns r).bench = s.bench := rfl
@[simp] theorem returns_result (r : OpResult) : (s.returns r).result = r := rfl
@[simp] theorem returns_draws (r : OpResult) : (s.returns r).draws = s.draws := rfl

/-! ### `State.unspecifyRecord` -/

@[simp] theorem unspecifyRecord_params : s.unspecifyRecord.params = s.params := rfl
@[simp] theorem unspecifyRecord_rst : s.unspecifyRecord.rst = s.rst := rfl
@[simp] theorem unspecifyRecord_start : s.unspecifyRecord.start = s.start := rfl
@[simp] theorem unspecifyRecord_mem : s.unspecifyRecord.mem = s.mem := rfl
@[simp] theorem unspecifyRecord_record : s.unspecifyRecord.record = freeRecord s.draws := rfl
@[simp] theorem unspecifyRecord_crc : s.unspecifyRecord.crc = Config.freeBits 16 s.draws 16 := rfl
@[simp] theorem unspecifyRecord_done : s.unspecifyRecord.done = s.done := rfl
@[simp] theorem unspecifyRecord_status : s.unspecifyRecord.status = s.status := rfl
@[simp] theorem unspecifyRecord_crcResult : s.unspecifyRecord.crcResult = CrcClass.ofCode (Config.freeBits 2 s.draws 17) := rfl
@[simp] theorem unspecifyRecord_window : s.unspecifyRecord.window = s.window := rfl
@[simp] theorem unspecifyRecord_bench : s.unspecifyRecord.bench = s.bench := rfl
@[simp] theorem unspecifyRecord_result : s.unspecifyRecord.result = s.result := rfl
@[simp] theorem unspecifyRecord_draws : s.unspecifyRecord.draws = s.draws + 1 := rfl

/-! ### `State.unspecifyAdj` -/

@[simp] theorem unspecifyAdj_params : s.unspecifyAdj.params = s.params := rfl
@[simp] theorem unspecifyAdj_rst : s.unspecifyAdj.rst = s.rst := rfl
@[simp] theorem unspecifyAdj_start : s.unspecifyAdj.start = s.start := rfl
@[simp] theorem unspecifyAdj_mem : s.unspecifyAdj.mem = { s.mem with adj := freeSymbols s.draws s.params.lmax, adjLen := Config.freeNat s.draws 18 % (s.params.lmax + 1) } := rfl
@[simp] theorem unspecifyAdj_record : s.unspecifyAdj.record = s.record := rfl
@[simp] theorem unspecifyAdj_crc : s.unspecifyAdj.crc = s.crc := rfl
@[simp] theorem unspecifyAdj_done : s.unspecifyAdj.done = s.done := rfl
@[simp] theorem unspecifyAdj_status : s.unspecifyAdj.status = s.status := rfl
@[simp] theorem unspecifyAdj_crcResult : s.unspecifyAdj.crcResult = s.crcResult := rfl
@[simp] theorem unspecifyAdj_window : s.unspecifyAdj.window = s.window := rfl
@[simp] theorem unspecifyAdj_bench : s.unspecifyAdj.bench = s.bench := rfl
@[simp] theorem unspecifyAdj_result : s.unspecifyAdj.result = s.result := rfl
@[simp] theorem unspecifyAdj_draws : s.unspecifyAdj.draws = s.draws + 1 := rfl

/-! ### `State.unspecifyStatus` -/

@[simp] theorem unspecifyStatus_params : s.unspecifyStatus.params = s.params := rfl
@[simp] theorem unspecifyStatus_rst : s.unspecifyStatus.rst = s.rst := rfl
@[simp] theorem unspecifyStatus_start : s.unspecifyStatus.start = s.start := rfl
@[simp] theorem unspecifyStatus_mem : s.unspecifyStatus.mem = s.mem := rfl
@[simp] theorem unspecifyStatus_record : s.unspecifyStatus.record = s.record := rfl
@[simp] theorem unspecifyStatus_crc : s.unspecifyStatus.crc = s.crc := rfl
@[simp] theorem unspecifyStatus_done : s.unspecifyStatus.done = s.done := rfl
@[simp] theorem unspecifyStatus_status : s.unspecifyStatus.status = Status.ofCode (Config.freeBits 2 s.draws 19) := rfl
@[simp] theorem unspecifyStatus_crcResult : s.unspecifyStatus.crcResult = s.crcResult := rfl
@[simp] theorem unspecifyStatus_window : s.unspecifyStatus.window = s.window := rfl
@[simp] theorem unspecifyStatus_bench : s.unspecifyStatus.bench = s.bench := rfl
@[simp] theorem unspecifyStatus_result : s.unspecifyStatus.result = s.result := rfl
@[simp] theorem unspecifyStatus_draws : s.unspecifyStatus.draws = s.draws + 1 := rfl

/-! ### `State.writeAdj` -/

@[simp] theorem writeAdj_params (a : List DecSymbol) : (s.writeAdj a).params = s.params := rfl
@[simp] theorem writeAdj_rst (a : List DecSymbol) : (s.writeAdj a).rst = s.rst := rfl
@[simp] theorem writeAdj_start (a : List DecSymbol) : (s.writeAdj a).start = s.start := rfl
@[simp] theorem writeAdj_mem (a : List DecSymbol) : (s.writeAdj a).mem = { s.mem with adj := a ++ freeSymbols s.draws (s.params.lmax - a.length), adjLen := a.length } := rfl
@[simp] theorem writeAdj_record (a : List DecSymbol) : (s.writeAdj a).record = s.record := rfl
@[simp] theorem writeAdj_crc (a : List DecSymbol) : (s.writeAdj a).crc = s.crc := rfl
@[simp] theorem writeAdj_done (a : List DecSymbol) : (s.writeAdj a).done = s.done := rfl
@[simp] theorem writeAdj_status (a : List DecSymbol) : (s.writeAdj a).status = s.status := rfl
@[simp] theorem writeAdj_crcResult (a : List DecSymbol) : (s.writeAdj a).crcResult = s.crcResult := rfl
@[simp] theorem writeAdj_window (a : List DecSymbol) : (s.writeAdj a).window = s.window := rfl
@[simp] theorem writeAdj_bench (a : List DecSymbol) : (s.writeAdj a).bench = s.bench := rfl
@[simp] theorem writeAdj_result (a : List DecSymbol) : (s.writeAdj a).result = s.result := rfl
@[simp] theorem writeAdj_draws (a : List DecSymbol) : (s.writeAdj a).draws = s.draws + 1 := rfl

/-! ### `State.finish` -/

@[simp] theorem finish_params (o : Status) : (s.finish o).params = s.params := rfl
@[simp] theorem finish_rst (o : Status) : (s.finish o).rst = s.rst := rfl
@[simp] theorem finish_start (o : Status) : (s.finish o).start = s.start := rfl
@[simp] theorem finish_mem (o : Status) : (s.finish o).mem = s.mem := rfl
@[simp] theorem finish_record (o : Status) : (s.finish o).record = s.record := rfl
@[simp] theorem finish_crc (o : Status) : (s.finish o).crc = s.crc := rfl
@[simp] theorem finish_done (o : Status) : (s.finish o).done = true := rfl
@[simp] theorem finish_status (o : Status) : (s.finish o).status = o := rfl
@[simp] theorem finish_crcResult (o : Status) : (s.finish o).crcResult = s.crcResult := rfl
@[simp] theorem finish_window (o : Status) : (s.finish o).window = s.window := rfl
@[simp] theorem finish_bench (o : Status) : (s.finish o).bench = s.bench := rfl
@[simp] theorem finish_result (o : Status) : (s.finish o).result = s.result := rfl
@[simp] theorem finish_draws (o : Status) : (s.finish o).draws = s.draws := rfl

/-! ### `State.writeRecord` -/

@[simp] theorem writeRecord_params : s.writeRecord.params = s.params := rfl
@[simp] theorem writeRecord_rst : s.writeRecord.rst = s.rst := rfl
@[simp] theorem writeRecord_start : s.writeRecord.start = s.start := rfl
@[simp] theorem writeRecord_mem : s.writeRecord.mem = s.mem := rfl
@[simp] theorem writeRecord_record : s.writeRecord.record = recordOf s.adjusted := rfl
@[simp] theorem writeRecord_crc : s.writeRecord.crc = crcSpan s.adjusted := rfl
@[simp] theorem writeRecord_done : s.writeRecord.done = s.done := rfl
@[simp] theorem writeRecord_status : s.writeRecord.status = s.status := rfl
@[simp] theorem writeRecord_crcResult : s.writeRecord.crcResult = classify (crcSpan s.adjusted) (recordOf s.adjusted).crcRx := rfl
@[simp] theorem writeRecord_window : s.writeRecord.window = s.window := rfl
@[simp] theorem writeRecord_bench : s.writeRecord.bench = s.bench := rfl
@[simp] theorem writeRecord_result : s.writeRecord.result = s.result := rfl
@[simp] theorem writeRecord_draws : s.writeRecord.draws = s.draws := rfl

/-! ### `State.releasePins` -/

@[simp] theorem releasePins_params : s.releasePins.params = s.params := rfl
@[simp] theorem releasePins_rst : s.releasePins.rst = false := rfl
@[simp] theorem releasePins_start : s.releasePins.start = false := rfl
@[simp] theorem releasePins_mem : s.releasePins.mem = s.mem := rfl
@[simp] theorem releasePins_record : s.releasePins.record = s.record := rfl
@[simp] theorem releasePins_crc : s.releasePins.crc = s.crc := rfl
@[simp] theorem releasePins_done : s.releasePins.done = s.done := rfl
@[simp] theorem releasePins_status : s.releasePins.status = s.status := rfl
@[simp] theorem releasePins_crcResult : s.releasePins.crcResult = s.crcResult := rfl
@[simp] theorem releasePins_window : s.releasePins.window = s.window := rfl
@[simp] theorem releasePins_bench : s.releasePins.bench = s.bench := rfl
@[simp] theorem releasePins_result : s.releasePins.result = s.result := rfl
@[simp] theorem releasePins_draws : s.releasePins.draws = s.draws := rfl

/-! ### `State.clearBench` -/

@[simp] theorem clearBench_params : s.clearBench.params = s.params := rfl
@[simp] theorem clearBench_rst : s.clearBench.rst = s.rst := rfl
@[simp] theorem clearBench_start : s.clearBench.start = s.start := rfl
@[simp] theorem clearBench_mem : s.clearBench.mem = s.mem := rfl
@[simp] theorem clearBench_record : s.clearBench.record = s.record := rfl
@[simp] theorem clearBench_crc : s.clearBench.crc = s.crc := rfl
@[simp] theorem clearBench_done : s.clearBench.done = s.done := rfl
@[simp] theorem clearBench_status : s.clearBench.status = s.status := rfl
@[simp] theorem clearBench_crcResult : s.clearBench.crcResult = s.crcResult := rfl
@[simp] theorem clearBench_window : s.clearBench.window = s.window := rfl
@[simp] theorem clearBench_bench : s.clearBench.bench = [] := rfl
@[simp] theorem clearBench_result : s.clearBench.result = s.result := rfl
@[simp] theorem clearBench_draws : s.clearBench.draws = s.draws := rfl

/-! ### `State.assertStart` -/

@[simp] theorem assertStart_params : s.assertStart.params = s.params := rfl
@[simp] theorem assertStart_rst : s.assertStart.rst = s.rst := rfl
@[simp] theorem assertStart_start : s.assertStart.start = true := rfl
@[simp] theorem assertStart_mem : s.assertStart.mem = s.mem := rfl
@[simp] theorem assertStart_record : s.assertStart.record = s.record := rfl
@[simp] theorem assertStart_crc : s.assertStart.crc = s.crc := rfl
@[simp] theorem assertStart_done : s.assertStart.done = s.done := rfl
@[simp] theorem assertStart_status : s.assertStart.status = s.status := rfl
@[simp] theorem assertStart_crcResult : s.assertStart.crcResult = s.crcResult := rfl
@[simp] theorem assertStart_window : s.assertStart.window = s.window := rfl
@[simp] theorem assertStart_bench : s.assertStart.bench = s.bench := rfl
@[simp] theorem assertStart_result : s.assertStart.result = s.result := rfl
@[simp] theorem assertStart_draws : s.assertStart.draws = s.draws := rfl

/-! ### `State.assertRst` -/

@[simp] theorem assertRst_params : s.assertRst.params = s.params := rfl
@[simp] theorem assertRst_rst : s.assertRst.rst = true := rfl
@[simp] theorem assertRst_start : s.assertRst.start = s.start := rfl
@[simp] theorem assertRst_mem : s.assertRst.mem = s.mem := rfl
@[simp] theorem assertRst_record : s.assertRst.record = s.record := rfl
@[simp] theorem assertRst_crc : s.assertRst.crc = s.crc := rfl
@[simp] theorem assertRst_done : s.assertRst.done = s.done := rfl
@[simp] theorem assertRst_status : s.assertRst.status = s.status := rfl
@[simp] theorem assertRst_crcResult : s.assertRst.crcResult = s.crcResult := rfl
@[simp] theorem assertRst_window : s.assertRst.window = s.window := rfl
@[simp] theorem assertRst_bench : s.assertRst.bench = s.bench := rfl
@[simp] theorem assertRst_result : s.assertRst.result = s.result := rfl
@[simp] theorem assertRst_draws : s.assertRst.draws = s.draws := rfl

/-! ### `State.present` -/

@[simp] theorem present_params (raw : List Byte) : (s.present raw).params = s.params := rfl
@[simp] theorem present_rst (raw : List Byte) : (s.present raw).rst = s.rst := rfl
@[simp] theorem present_start (raw : List Byte) : (s.present raw).start = s.start := rfl
@[simp] theorem present_mem (raw : List Byte) : (s.present raw).mem = { s.mem with raw := raw ++ List.replicate (s.params.lmax - raw.length) 0, rawLen := raw.length } := rfl
@[simp] theorem present_record (raw : List Byte) : (s.present raw).record = s.record := rfl
@[simp] theorem present_crc (raw : List Byte) : (s.present raw).crc = s.crc := rfl
@[simp] theorem present_done (raw : List Byte) : (s.present raw).done = s.done := rfl
@[simp] theorem present_status (raw : List Byte) : (s.present raw).status = s.status := rfl
@[simp] theorem present_crcResult (raw : List Byte) : (s.present raw).crcResult = s.crcResult := rfl
@[simp] theorem present_window (raw : List Byte) : (s.present raw).window = s.window := rfl
@[simp] theorem present_bench (raw : List Byte) : (s.present raw).bench = s.bench := rfl
@[simp] theorem present_result (raw : List Byte) : (s.present raw).result = s.result := rfl
@[simp] theorem present_draws (raw : List Byte) : (s.present raw).draws = s.draws := rfl

@[simp] theorem resetBlock_params : s.resetBlock.params = s.params := rfl
@[simp] theorem resetBlock_rst : s.resetBlock.rst = s.rst := rfl
@[simp] theorem resetBlock_start : s.resetBlock.start = s.start := rfl
@[simp] theorem resetBlock_mem : s.resetBlock.mem = s.unspecifyRecord.unspecifyAdj.mem := rfl
@[simp] theorem resetBlock_record : s.resetBlock.record = freeRecord s.draws := rfl
@[simp] theorem resetBlock_crc : s.resetBlock.crc = Config.crcInit := rfl
@[simp] theorem resetBlock_done : s.resetBlock.done = false := rfl
@[simp] theorem resetBlock_status : s.resetBlock.status = .ok := rfl
@[simp] theorem resetBlock_crcResult : s.resetBlock.crcResult = CrcClass.ofCode (Config.freeBits 2 s.draws 17) := rfl
@[simp] theorem resetBlock_window : s.resetBlock.window = none := rfl
@[simp] theorem resetBlock_bench : s.resetBlock.bench = s.bench := rfl
@[simp] theorem resetBlock_result : s.resetBlock.result = .none := rfl
@[simp] theorem resetBlock_draws : s.resetBlock.draws = s.draws + 2 := rfl

@[simp] theorem openWindow_params (raw : List Byte) (n : Nat) : (s.openWindow raw n).params = s.params := rfl
@[simp] theorem openWindow_rst (raw : List Byte) (n : Nat) : (s.openWindow raw n).rst = s.rst := rfl
@[simp] theorem openWindow_start (raw : List Byte) (n : Nat) : (s.openWindow raw n).start = s.start := rfl
@[simp] theorem openWindow_mem (raw : List Byte) (n : Nat) : (s.openWindow raw n).mem = s.unspecifyRecord.unspecifyAdj.mem := rfl
@[simp] theorem openWindow_record (raw : List Byte) (n : Nat) : (s.openWindow raw n).record = freeRecord s.draws := rfl
@[simp] theorem openWindow_crc (raw : List Byte) (n : Nat) : (s.openWindow raw n).crc = Config.freeBits 16 s.draws 16 := rfl
@[simp] theorem openWindow_done (raw : List Byte) (n : Nat) : (s.openWindow raw n).done = false := rfl
@[simp] theorem openWindow_status (raw : List Byte) (n : Nat) : (s.openWindow raw n).status = Status.ofCode (Config.freeBits 2 (s.draws + 2) 19) := rfl
@[simp] theorem openWindow_crcResult (raw : List Byte) (n : Nat) : (s.openWindow raw n).crcResult = CrcClass.ofCode (Config.freeBits 2 s.draws 17) := rfl
@[simp] theorem openWindow_window (raw : List Byte) (n : Nat) : (s.openWindow raw n).window = some { sampled := raw, left := n } := rfl
@[simp] theorem openWindow_bench (raw : List Byte) (n : Nat) : (s.openWindow raw n).bench = s.bench := rfl
@[simp] theorem openWindow_result (raw : List Byte) (n : Nat) : (s.openWindow raw n).result = .none := rfl
@[simp] theorem openWindow_draws (raw : List Byte) (n : Nat) : (s.openWindow raw n).draws = s.draws + 3 := rfl

end Sys2Proof.Machine
end

