-- ==== Sys2Proof/Laws/Ops.lean ====
section
/-! SUPPORT. One lemma for each shared operation that says once everything it can do, and the proofs that every
operation over the buffers keeps their form. -/

namespace Sys2Proof.Laws

open Sys2Proof Sys2Proof.Machine

/-! ## Conditions on an operation -/

theorem withRaw_next {s t : State} {k : List Byte → Out} (h : withRaw s k = .next t) :
    s.presentable = true ∧ k s.rawString = .next t := by
  unfold withRaw at h
  split at h
  · exact ⟨‹_›, h⟩
  · cases h

theorem withRaw_of_presentable {s : State} (k : List Byte → Out) (h : s.presentable = true) :
    withRaw s k = k s.rawString := if_pos h

theorem withResync_next {s t : State} {k : Out} (h : withResync s k = .next t) :
    s.params.hasResync = true ∧ k = .next t := by
  unfold withResync at h
  split at h
  · exact ⟨‹_›, h⟩
  · cases h

theorem withResync_of_present {s : State} (k : Out) (h : s.params.hasResync = true) :
    withResync s k = k := if_pos h

theorem presentable_iff (s : State) :
    s.presentable = true ↔ s.mem.raw.length = s.params.lmax ∧ s.mem.rawLen ≤ s.params.lmax := by
  simp [State.presentable]

theorem rawString_length (s : State) (h : s.presentable = true) : s.rawString.length = s.mem.rawLen := by
  rw [presentable_iff] at h
  rw [State.rawString, List.length_take]
  omega

theorem rawString_length_le (s : State) (h : s.presentable = true) :
    s.rawString.length ≤ s.params.lmax :=
  (rawString_length s h).trans_le ((presentable_iff s).1 h).2

/-! ## Operations that return a value -/

/-- A select always completes and writes nothing but `result` and, on a window that is not ready, `draws`. -/
theorem select_next (lo n : Nat) (s : State) : ∃ (v : BitVec (4 * n)) (d : Nat),
    select lo n s = .next { s with result := .bits (4 * n) v, draws := d } ∧
    (windowReady s.adjusted = true → v = memRead s.adjusted lo n ∧ d = s.draws) := by
  unfold select
  split
  · exact ⟨_, _, rfl, fun _ => ⟨rfl, rfl⟩⟩
  · exact ⟨_, _, rfl, fun h => absurd h ‹_›⟩

/-- A shift always completes and writes nothing but `result` and, on a non-hexadecimal symbol, `draws`. -/
theorem runShift_next (f : List DecSymbol → List DecSymbol) (x : List DecSymbol) (s : State) :
    ∃ (y : List DecSymbol) (d : Nat),
      runShift f x s = .next { s with result := .symbols y, draws := d } ∧
      (allOk x = true → y = f x ∧ d = s.draws) ∧
      (allOk x = false → y.length = x.length ∧ .other ∉ y) := by
  unfold runShift
  split
  · exact ⟨_, _, rfl, fun _ => ⟨rfl, rfl⟩, fun h => absurd h (by simp [*])⟩
  · exact ⟨_, _, rfl, fun h => absurd h ‹_›, fun _ => ⟨nibs_length _ _, other_notMem_nibs _ _⟩⟩

/-! ## The adjusted buffer -/

@[simp] theorem writeAdj_adjusted (s : State) (a : List DecSymbol) : (s.writeAdj a).adjusted = a := by
  simp [State.adjusted]

theorem adjusted_of_mem {s t : State} (h : t.mem = s.mem) : t.adjusted = s.adjusted := by
  rw [State.adjusted, State.adjusted, h]

/-! ## DECODE as the end of a transaction -/

theorem decodeFailure_cases (adj : List DecSymbol) :
    (adj.length < 41 ∧ decodeFailure adj = some .tooShort) ∨
    (41 ≤ adj.length ∧ .other ∈ adj.take 41 ∧ decodeFailure adj = some .badHex) ∨
    (41 ≤ adj.length ∧ .other ∉ adj.take 41 ∧ decodeFailure adj = none) := by
  have e := allOk_iff (adj.take 41)
  by_cases h1 : adj.length < 41
  · exact .inl ⟨h1, if_pos h1⟩
  · by_cases h2 : allOk (adj.take 41) = true
    · exact .inr (.inr ⟨by omega, e.1 h2, (if_neg h1).trans (if_pos h2)⟩)
    · exact .inr (.inl ⟨by omega, by_contra fun h => h2 (e.2 h), (if_neg h1).trans (if_neg h2)⟩)

theorem decodeFailure_none_iff (adj : List DecSymbol) :
    decodeFailure adj = none ↔ windowReady adj = true := by
  rw [windowReady_iff]
  rcases decodeFailure_cases adj with ⟨h, e⟩ | ⟨h, g, e⟩ | ⟨h, g, e⟩
  · exact ⟨fun k => by simp [e] at k, fun k => by omega⟩
  · exact ⟨fun k => by simp [e] at k, fun k => absurd g k.2⟩
  · exact ⟨fun _ => ⟨h, g⟩, fun _ => e⟩

/-- The ends of a transaction on an adjusted string: one of the two failures of DECODE, or a record. -/
theorem decodeAndFinish_cases (s : State) :
    (s.adjusted.length < 41 ∧ s.decodeAndFinish = s.unspecifyRecord.finish .tooShort) ∨
    (41 ≤ s.adjusted.length ∧ .other ∈ s.adjusted.take 41 ∧
      s.decodeAndFinish = s.unspecifyRecord.finish .badHex) ∨
    (41 ≤ s.adjusted.length ∧ .other ∉ s.adjusted.take 41 ∧
      s.decodeAndFinish = s.writeRecord.finish .ok) := by
  unfold State.decodeAndFinish
  rcases decodeFailure_cases s.adjusted with ⟨h, e⟩ | ⟨h, g, e⟩ | ⟨h, g, e⟩ <;> rw [e]
  · exact .inl ⟨h, rfl⟩
  · exact .inr (.inl ⟨h, g, rfl⟩)
  · exact .inr (.inr ⟨h, g, rfl⟩)

/-! ## The form of the buffers -/

theorem memWf_iff (s : State) : s.memWf = true ↔
    s.mem.raw.length = s.params.lmax ∧ s.mem.rawLen ≤ s.params.lmax ∧
      s.mem.adj.length = s.params.lmax ∧ s.mem.adjLen ≤ s.params.lmax := by
  simp [State.memWf, Memory.wf, and_assoc]

theorem memWf_of_mem {s t : State} (hs : s.memWf = true) (hm : t.mem = s.mem)
    (hp : t.params = s.params) : t.memWf = true := by
  rwa [State.memWf, hm, hp]

theorem memWf_reset : State.reset.memWf = true := by decide

theorem memWf_writeAdj {s : State} (hs : s.memWf = true) (a : List DecSymbol)
    (ha : a.length ≤ s.params.lmax) : (s.writeAdj a).memWf = true := by
  rw [memWf_iff] at *
  refine ⟨hs.1, hs.2.1, ?_, ha⟩
  rw [writeAdj_mem, writeAdj_params, List.length_append, freeSymbols, List.length_map, List.length_range]
  omega

theorem memWf_unspecifyAdj {s : State} (hs : s.memWf = true) : s.unspecifyAdj.memWf = true := by
  rw [memWf_iff] at *
  refine ⟨hs.1, hs.2.1, ?_, Nat.lt_succ_iff.1 (Nat.mod_lt _ (Nat.succ_pos _))⟩
  rw [unspecifyAdj_mem, unspecifyAdj_params, freeSymbols, List.length_map, List.length_range]

theorem memWf_present {s : State} (hs : s.memWf = true) (raw : List Byte)
    (hr : raw.length ≤ s.params.lmax) : (s.present raw).memWf = true := by
  rw [memWf_iff] at *
  refine ⟨?_, hr, hs.2.2⟩
  show (raw ++ List.replicate (s.params.lmax - raw.length) 0).length = s.params.lmax
  rw [List.length_append, List.length_replicate]
  omega

theorem present_rawString (s : State) (raw : List Byte) : (s.present raw).rawString = raw := by
  simp [State.rawString, State.present]

theorem memWf_decodeAndFinish {s : State} (hs : s.memWf = true) : s.decodeAndFinish.memWf = true := by
  rcases decodeAndFinish_cases s with ⟨_, e⟩ | ⟨_, _, e⟩ | ⟨_, _, e⟩ <;> rw [e] <;>
    exact memWf_of_mem hs rfl rfl

/-! ## Runs -/

theorem run_next (M : Host.Core) {s t : M.State} (k : Nat) (h : M.step s = .next t) :
    M.run (k + 1) s = M.run k t := by
  simp [Host.Core.run, h]

theorem runSteps_next {s t : State} (k : Nat) (h : step s = .next t) :
    runSteps (k + 1) s = runSteps k t :=
  run_next Sys2Proof.core k h

end Sys2Proof.Laws
end

