-- ==== Sys2Proof/Laws/PerInstr.lean ====
section
/-! SUPPORT. The per-operation family `EncodeHead`: a request starts with the byte of its row, and every row is
one of the 36 of spec/opcode_table.json. -/

namespace Sys2Proof.Laws

/-- The head of an encoded operation is its row, and the table has that row. -/
def EncodeHead.Statement (i : Instr) : Prop := (encode i).head? = some i.row ∧ i.row.toNat < 36

theorem EncodeHead.hexdec (c : Byte) : EncodeHead.Statement (.hexdec c) := ⟨rfl, (by decide : 0 < 36)⟩
theorem EncodeHead.hexdecs : EncodeHead.Statement (.hexdecs) := ⟨rfl, (by decide : 1 < 36)⟩
theorem EncodeHead.hexint (x : List DecSymbol) : EncodeHead.Statement (.hexint x) := ⟨rfl, (by decide : 2 < 36)⟩
theorem EncodeHead.matchsync (x : List DecSymbol) : EncodeHead.Statement (.matchsync x) := ⟨rfl, (by decide : 3 < 36)⟩
theorem EncodeHead.fill5 (x : List DecSymbol) : EncodeHead.Statement (.fill5 x) := ⟨rfl, (by decide : 4 < 36)⟩
theorem EncodeHead.filla (x : List DecSymbol) : EncodeHead.Statement (.filla x) := ⟨rfl, (by decide : 5 < 36)⟩
theorem EncodeHead.strip5 (x : List DecSymbol) : EncodeHead.Statement (.strip5 x) := ⟨rfl, (by decide : 6 < 36)⟩
theorem EncodeHead.shl1 (x : List DecSymbol) : EncodeHead.Statement (.shl1 x) := ⟨rfl, (by decide : 7 < 36)⟩
theorem EncodeHead.shr1 (x : List DecSymbol) : EncodeHead.Statement (.shr1 x) := ⟨rfl, (by decide : 8 < 36)⟩
theorem EncodeHead.resync : EncodeHead.Statement (.resync) := ⟨rfl, (by decide : 9 < 36)⟩
theorem EncodeHead.selSyncword : EncodeHead.Statement (.selSyncword) := ⟨rfl, (by decide : 10 < 36)⟩
theorem EncodeHead.selReceiverId : EncodeHead.Statement (.selReceiverId) := ⟨rfl, (by decide : 11 < 36)⟩
theorem EncodeHead.selSenderId : EncodeHead.Statement (.selSenderId) := ⟨rfl, (by decide : 12 < 36)⟩
theorem EncodeHead.selU1 : EncodeHead.Statement (.selU1) := ⟨rfl, (by decide : 13 < 36)⟩
theorem EncodeHead.selU2 : EncodeHead.Statement (.selU2) := ⟨rfl, (by decide : 14 < 36)⟩
theorem EncodeHead.selU3 : EncodeHead.Statement (.selU3) := ⟨rfl, (by decide : 15 < 36)⟩
theorem EncodeHead.selTotalAh : EncodeHead.Statement (.selTotalAh) := ⟨rfl, (by decide : 16 < 36)⟩
theorem EncodeHead.selU4 : EncodeHead.Statement (.selU4) := ⟨rfl, (by decide : 17 < 36)⟩
theorem EncodeHead.selCurrentA : EncodeHead.Statement (.selCurrentA) := ⟨rfl, (by decide : 18 < 36)⟩
theorem EncodeHead.selBattery : EncodeHead.Statement (.selBattery) := ⟨rfl, (by decide : 19 < 36)⟩
theorem EncodeHead.selU5 : EncodeHead.Statement (.selU5) := ⟨rfl, (by decide : 20 < 36)⟩
theorem EncodeHead.selCrc : EncodeHead.Statement (.selCrc) := ⟨rfl, (by decide : 21 < 36)⟩
theorem EncodeHead.selU6 : EncodeHead.Statement (.selU6) := ⟨rfl, (by decide : 22 < 36)⟩
theorem EncodeHead.selSpan : EncodeHead.Statement (.selSpan) := ⟨rfl, (by decide : 23 < 36)⟩
theorem EncodeHead.scale24 (r : BitVec 24) : EncodeHead.Statement (.scale24 r) := ⟨rfl, (by decide : 24 < 36)⟩
theorem EncodeHead.scale16 (r : BitVec 16) : EncodeHead.Statement (.scale16 r) := ⟨rfl, (by decide : 25 < 36)⟩
theorem EncodeHead.crcInit : EncodeHead.Statement (.crcInit) := ⟨rfl, (by decide : 26 < 36)⟩
theorem EncodeHead.crcBit (d : BitVec 1) : EncodeHead.Statement (.crcBit d) := ⟨rfl, (by decide : 27 < 36)⟩
theorem EncodeHead.crcNib (n : Nib) : EncodeHead.Statement (.crcNib n) := ⟨rfl, (by decide : 28 < 36)⟩
theorem EncodeHead.crcByte (b : Byte) : EncodeHead.Statement (.crcByte b) := ⟨rfl, (by decide : 29 < 36)⟩
theorem EncodeHead.crcSpan : EncodeHead.Statement (.crcSpan) := ⟨rfl, (by decide : 30 < 36)⟩
theorem EncodeHead.classify (a r : BitVec 16) : EncodeHead.Statement (.classify a r) := ⟨rfl, (by decide : 31 < 36)⟩
theorem EncodeHead.decode : EncodeHead.Statement (.decode) := ⟨rfl, (by decide : 32 < 36)⟩
theorem EncodeHead.frame : EncodeHead.Statement (.frame) := ⟨rfl, (by decide : 33 < 36)⟩
theorem EncodeHead.start : EncodeHead.Statement (.start) := ⟨rfl, (by decide : 34 < 36)⟩
theorem EncodeHead.reset (s : BitVec 1) : EncodeHead.Statement (.reset s) := ⟨rfl, (by decide : 35 < 36)⟩

end Sys2Proof.Laws
end

