-- ==== Sys2Proof/Tests/Slice0.lean ====
section
/-! SUPPORT. The model's own tests: ill-formed operands, one written request for each operation, the spec's test
vectors (95_test_vectors.md, V1 to V71 and P1 to P5; every expected value is taken from there or from the rule
named), and for each statement with hypotheses a state and operands that meet them. -/

namespace Sys2Proof.Tests

open Sys2Proof Sys2Proof.Machine

/-! ## Helpers -/

/-- The character code of a hexadecimal digit, in lower case. -/
def code (d : Nat) : Byte := BitVec.ofNat 8 (if d < 10 then 0x30 + d else 0x57 + d)

/-- The characters of an `n`-digit hexadecimal number. -/
def text (n v : Nat) : List Byte := (List.range n).map fun i => code (v / 16 ^ (n - 1 - i) % 16)

/-- The symbols of an `n`-digit hexadecimal number. -/
def syms (n v : Nat) : List DecSymbol :=
  (List.range n).map fun i => .hex (BitVec.ofNat 4 (v / 16 ^ (n - 1 - i)))

/-- Frame A of 95_test_vectors.md. -/
def frameA : Nat := 0x347512345678010c020003e8000004d200073a9c0

/-- The block after reset with a string on its port. -/
def port (raw : List Byte) : State := State.reset.present raw

/-- The same for an instance without the RESYNC unit. -/
def bare (raw : List Byte) : State :=
  { port raw with params := { resetParams with hasResync := false } }

/-- The block after reset with an adjusted string in its buffer. -/
def holding (x : List DecSymbol) : State :=
  { State.reset with mem := { State.reset.mem with
      adj := x ++ List.replicate (64 - x.length) .other
      adjLen := x.length } }

/-- What an operation leaves of a state, where it answers a next state. -/
def after {α : Type} (o : Out) (f : State → α) : Option α :=
  match o with
  | .next t => some (f t)
  | _ => none

/-! ## WellFormed -/

theorem test_wf_hexint_refuses_three : (Instr.hexint (syms 3 0x123)).wellFormed = false := by decide
theorem test_wf_hexint_refuses_none : (Instr.hexint []).wellFormed = false := by decide
theorem test_wf_shl1_refuses_none : (Instr.shl1 []).wellFormed = false := by decide
theorem test_wf_shr1_refuses_none : (Instr.shr1 []).wellFormed = false := by decide
theorem test_wf_decoder_refuses_shape : decode [2, 0x11, 0x12, 0x13] = .error .operandShape := by decide
theorem test_wf_decoder_refuses_nibble_of_other : decode [3, 0x05] = .error .badSymbol := by decide
theorem test_wf_decoder_refuses_pins : decode [34, 0x03] = .error .pinsMismatch := by decide
theorem test_wf_decoder_refuses_row : decode [36] = .error (.unknownOperation 36) := by decide

/-! ## Decode: one request written out for each operation -/

theorem test_decode_hexdec : decode [0, 0x45] = .ok (.hexdec 0x45) := by decide
theorem test_decode_hexdecs : decode [1] = .ok .hexdecs := by decide
theorem test_decode_hexint : decode [2, 0x10, 0x1F] = .ok (.hexint [.hex 0#4, .hex 15#4]) := by decide
theorem test_decode_matchsync : decode [3, 0x13, 0x14, 0x17, 0x15] = .ok (.matchsync [.hex 3#4, .hex 4#4, .hex 7#4, .hex 5#4]) := by decide
theorem test_decode_fill5 : decode [4, 0x15, 0x15] = .ok (.fill5 [.hex 5#4, .hex 5#4]) := by decide
theorem test_decode_filla : decode [5, 0x1A, 0x00] = .ok (.filla [.hex 10#4, .other]) := by decide
theorem test_decode_strip5 : decode [6, 0x15, 0x13] = .ok (.strip5 [.hex 5#4, .hex 3#4]) := by decide
theorem test_decode_shl1 : decode [7, 0x18, 0x11] = .ok (.shl1 [.hex 8#4, .hex 1#4]) := by decide
theorem test_decode_shr1 : decode [8, 0x18, 0x11] = .ok (.shr1 [.hex 8#4, .hex 1#4]) := by decide
theorem test_decode_resync : decode [9] = .ok .resync := by decide
theorem test_decode_selSyncword : decode [10] = .ok .selSyncword := by decide
theorem test_decode_selReceiverId : decode [11] = .ok .selReceiverId := by decide
theorem test_decode_selSenderId : decode [12] = .ok .selSenderId := by decide
theorem test_decode_selU1 : decode [13] = .ok .selU1 := by decide
theorem test_decode_selU2 : decode [14] = .ok .selU2 := by decide
theorem test_decode_selU3 : decode [15] = .ok .selU3 := by decide
theorem test_decode_selTotalAh : decode [16] = .ok .selTotalAh := by decide
theorem test_decode_selU4 : decode [17] = .ok .selU4 := by decide
theorem test_decode_selCurrentA : decode [18] = .ok .selCurrentA := by decide
theorem test_decode_selBattery : decode [19] = .ok .selBattery := by decide
theorem test_decode_selU5 : decode [20] = .ok .selU5 := by decide
theorem test_decode_selCrc : decode [21] = .ok .selCrc := by decide
theorem test_decode_selU6 : decode [22] = .ok .selU6 := by decide
theorem test_decode_selSpan : decode [23] = .ok .selSpan := by decide
theorem test_decode_scale24 : decode [24, 0xE8, 0x03, 0x01] = .ok (.scale24 0x0103E8) := by decide
theorem test_decode_scale16 : decode [25, 0xD2, 0x04] = .ok (.scale16 0x04D2) := by decide
theorem test_decode_crcInit : decode [26] = .ok .crcInit := by decide
theorem test_decode_crcBit : decode [27, 0x01] = .ok (.crcBit 1) := by decide
theorem test_decode_crcNib : decode [28, 0x0B] = .ok (.crcNib 0xB) := by decide
theorem test_decode_crcByte : decode [29, 0x31] = .ok (.crcByte 0x31) := by decide
theorem test_decode_crcSpan : decode [30] = .ok .crcSpan := by decide
theorem test_decode_classify : decode [31, 0x4E, 0x1D, 0x9C, 0x3A] = .ok (.classify 0x3A9C 0x1D4E) := by decide
theorem test_decode_decode : decode [32] = .ok .decode := by decide
theorem test_decode_frame : decode [33] = .ok .frame := by decide
theorem test_decode_start : decode [34, 0x01] = .ok .start := by decide
theorem test_decode_reset : decode [35, 0x03] = .ok (.reset 1) := by decide
theorem test_table_matchsync : decodeTableWord 16 0x3475 =
    some (.matchsync [.hex 3#4, .hex 4#4, .hex 7#4, .hex 5#4]) := by decide
theorem test_table_reset : decodeTableWord 8 0x03 = some (.reset 1) := by decide

/-! ## One operation on a small state -/

theorem test_hexdec_upper : after (exec (.hexdec 0x46) (port [])) (·.result) =
    some (.symbol (.hex 15#4)) := by decide
theorem test_hexdec_below_a : after (exec (.hexdec 0x60) (port [])) (·.result) =
    some (.symbol .other) := by decide
theorem test_hexdecs : after (exec (.hexdecs) (port [0x33, 0x61, 0x46, 0x2F])) (·.result) =
    some (.symbols [.hex 3#4, .hex 10#4, .hex 15#4, .other]) := by decide
theorem test_hexint_0003e8 : after (exec (.hexint (syms 6 0x0003E8)) (port [])) (·.result) =
    some (.bits 24 1000) := by decide
theorem test_hexint_first_is_high : after (exec (.hexint (syms 2 0x10)) (port [])) (·.result) =
    some (.bits 8 16) := by decide
theorem test_matchsync_3475ff : after (exec (.matchsync (syms 6 0x3475FF)) (port [])) (·.result) =
    some (.flag true) := by decide
theorem test_matchsync_short : after (exec (.matchsync (syms 3 0x347)) (port [])) (·.result) =
    some (.flag false) := by decide
theorem test_fill5_5a : after (exec (.fill5 (syms 2 0x5A)) (port [])) (·.result) =
    some (.flag false) := by decide
theorem test_fill5_555 : after (exec (.fill5 (syms 3 0x555)) (port [])) (·.result) =
    some (.flag true) := by decide
theorem test_filla_aa : after (exec (.filla (syms 2 0xAA)) (port [])) (·.result) =
    some (.flag true) := by decide
theorem test_filla_a : after (exec (.filla (syms 1 0xA)) (port [])) (·.result) =
    some (.flag false) := by decide
theorem test_strip5_stops_at_other : after (exec (.strip5 [.hex 5#4, .other, .hex 5#4]) (port [])) (·.result) =
    some (.symbols [.other, .hex 5#4]) := by decide
theorem test_strip5_5553475 : after (exec (.strip5 (syms 7 0x5553475)) (port [])) (·.result) =
    some (.symbols (syms 4 0x3475)) := by decide
theorem test_shl1_aa9a3a : after (exec (.shl1 (syms 6 0xAA9A3A)) (port [])) (·.result) =
    some (.symbols (syms 6 0x553474)) := by decide
theorem test_shl1_8001 : after (exec (.shl1 (syms 4 0x8001)) (port [])) (·.result) =
    some (.symbols (syms 4 0x0002)) := by decide
theorem test_shr1_aa68ea : after (exec (.shr1 (syms 6 0xAA68EA)) (port [])) (·.result) =
    some (.symbols (syms 6 0x553475)) := by decide
theorem test_shr1_8001 : after (exec (.shr1 (syms 4 0x8001)) (port [])) (·.result) =
    some (.symbols (syms 4 0x4000)) := by decide
theorem test_resync_v27 : after (exec (.resync) (port (text 47 0xdeadaa68ea2468acf00218040007d0000009a4000e75380))) (fun t => (t.adjusted, t.mem.adjLen)) =
    some (syms 41 frameA, 41) := by decide
theorem test_resync_v30 : after (exec (.resync) (port (text 47 0xdeadaa1a3a891a2b3c0086010001f40000026900039d4e0))) (·.result) =
    some (.adjusted none) := by decide

/-- The position marker of V57: nibble `i mod 16` at position `i`. -/
def marker : State := holding (syms 41 0x0123456789abcdef0123456789abcdef012345678)

theorem test_selSyncword : after (exec (.selSyncword) (marker)) (·.result) =
    some (.bits 16 0x3475) := by decide
theorem test_selReceiverId : after (exec (.selReceiverId) (marker)) (·.result) =
    some (.bits 16 0x4567) := by decide
theorem test_selSenderId : after (exec (.selSenderId) (marker)) (·.result) =
    some (.bits 16 0x89AB) := by decide
theorem test_selU1 : after (exec (.selU1) (marker)) (·.result) =
    some (.bits 8 0xCD) := by decide
theorem test_selU2 : after (exec (.selU2) (marker)) (·.result) =
    some (.bits 8 0xEF) := by decide
theorem test_selU3 : after (exec (.selU3) (marker)) (·.result) =
    some (.bits 8 0x01) := by decide
theorem test_selTotalAh : after (exec (.selTotalAh) (marker)) (·.result) =
    some (.bits 24 0x234567) := by decide
theorem test_selU4 : after (exec (.selU4) (marker)) (·.result) =
    some (.bits 16 0x89AB) := by decide
theorem test_selCurrentA : after (exec (.selCurrentA) (marker)) (·.result) =
    some (.bits 16 0xCDEF) := by decide
theorem test_selBattery : after (exec (.selBattery) (marker)) (·.result) =
    some (.bits 8 0x01) := by decide
theorem test_selU5 : after (exec (.selU5) (marker)) (·.result) =
    some (.bits 8 0x23) := by decide
theorem test_selCrc : after (exec (.selCrc) (marker)) (·.result) =
    some (.bits 16 0x4567) := by decide
theorem test_selU6 : after (exec (.selU6) (marker)) (·.result) =
    some (.bits 4 0x8) := by decide
theorem test_selSpan : after (exec (.selSpan) (marker)) (·.result) =
    some (.nibbles ((List.range 28).map fun i => BitVec.ofNat 4 (8 + i))) := by decide
theorem test_scale24_largest : after (exec (.scale24 0xFFFFFF) (port [])) (·.result) =
    some (.scaled24 167772 15) := by decide
theorem test_scale24_1000 : after (exec (.scale24 0x0003E8) (port [])) (·.result) =
    some (.scaled24 10 0) := by decide
theorem test_scale16_largest : after (exec (.scale16 0xFFFF) (port [])) (·.result) =
    some (.scaled16 655 35) := by decide
theorem test_crcInit : after (exec (.crcInit) ({ port [] with crc := 0 })) (·.crc) =
    some (0x1D0F) := by decide
theorem test_crcBit_feedback : after (exec (.crcBit 1) ({ port [] with crc := 0x3A1E })) (·.crc) =
    some (0x641D) := by decide
theorem test_crcBit_top : after (exec (.crcBit 1) ({ port [] with crc := 0x8000 })) (·.crc) =
    some (0x0000) := by decide
theorem test_crcNib_6 : after (exec (.crcNib 6) ({ port [] with crc := 0x9074 })) (·.crc) =
    some (0xF6AF) := by decide
theorem test_crcByte_ff : after (exec (.crcByte 0xFF) (port [])) (·.crc) =
    some (0xD26C) := by decide
theorem test_crcByte_31 : after (exec (.crcByte 0x31) (port [])) (·.crc) =
    some (0xEAEE) := by decide
theorem test_crcSpan_frameA : after (exec (.crcSpan) (holding (syms 41 frameA))) (·.crc) =
    some (0x3A9C) := by decide +kernel
theorem test_crcSpan_frameB : after (exec (.crcSpan) (holding (syms 41 0x3475beefffffff1980ffffffa5a5ffff01fe9a65f))) (·.crc) =
    some (0x9A65) := by decide +kernel
theorem test_classify_v47_untruncated : after (exec (.classify 0x5A5A 0xAD2D) (port [])) (·.result) =
    some (.cls .invalid) := by decide
theorem test_classify_v44_lost_bit : after (exec (.classify 0x3A9C 0x7539) (port [])) (·.result) =
    some (.cls .shiftedRight) := by decide
theorem test_decode_v57 : after (exec (.decode) (marker)) (fun t => (t.result, t.record.totalAhInt, t.record.totalAhFrac, t.record.currentAInt)) =
    some (.outcome .ok, 23115, 27, 527) := by decide
theorem test_decode_writes_no_done : after (exec (.decode) (holding (syms 41 frameA))) (fun t => (t.done, t.crcResult, t.record.crcRx)) =
    some (false, .valid, 0x3A9C) := by decide +kernel
theorem test_frame_v61_badhex : after (exec (.frame) (port (text 20 0x347512345678010c0200 ++ [0x67] ++ text 20 0x3e8000004d200073a9c0))) (fun t => (t.status, t.done, t.mem.adjLen, t.adjusted[20]?)) =
    some (.badHex, true, 41, some .other) := by decide
theorem test_frame_v65_short_before_badhex : after (exec (.frame) (port (text 4 0x3475 ++ [0x7A, 0x7A]))) (fun t => (t.status, t.mem.adjLen)) =
    some (.tooShort, 6) := by decide
theorem test_start_p4 : after (exec (.start) (port (text 49 0x2aaaaaaa9a3adf77ffffff8cc07fffffd2d2ffff80ff4d32f))) (fun t => (t.status, t.record.u6, t.crc, t.crcResult)) =
    some (.ok, 0xE, 0x9A65, .valid) := by decide +kernel
theorem test_start_v23_without_resync : after (exec (.start) (bare (text 47 0xdead55347512345678010c020003e8000004d200073a9c0))) (fun t => (t.status, t.record.receiverId, t.crc, t.record.crcRx)) =
    some (.ok, 0x5534, 0x14C1, 0xD200) := by decide +kernel
theorem test_reset_abandons : after (exec (.reset 0) ({ port [] with window := some { sampled := [], left := 1 }, done := true, crc := 0 })) (fun t => (t.done, t.crc, t.window)) =
    some (false, 0x1D0F, none) := by decide
theorem test_step_start_p5a : after (step (port (text 41 0x347512345678010c020003e8000004d2000775380)).assertStart)
    (fun t => (t.done, t.start, t.crcResult)) = some (true, false, .shiftedRight) := by decide +kernel
theorem test_step_table_word : after (step (State.reset.withFetchWord 24 0x0003E8)) (·.result) = some (.scaled24 10 0) := by decide

/-! ## Witnesses: states and operands that meet the hypotheses of the statements -/

/-- Frame A as the frame vector of `holding (syms 41 frameA)`. -/
def fvA : BitVec 164 := BitVec.ofNat 164 frameA

/-- The block after a transaction on frame A, its record on the outputs (P1). -/
def finishedA : State :=
  { holding (syms 41 frameA) with
    record := recordOf (syms 41 frameA)
    crc := 0x3A9C
    done := true
    crcResult := .valid }

/-- A transaction in progress on the one-character string `3`. -/
def running : State :=
  { port [0x33] with
    params := { resetParams with lat := some 2 }
    window := some { sampled := [0x33], left := 1 } }

theorem witness_DecodeOfEncode_one : (Instr.hexint (syms 1 0xF)).wellFormed = true := by decide
theorem witness_DecodeOfEncode_six : (Instr.hexint (syms 6 0xFFFFFF)).wellFormed = true := by decide
theorem witness_EncodeOfDecode : decode [8, 0x00] = .ok (.shr1 [.other]) := by decide
theorem witness_StepRuns_pins :
    decodePins (port []).assertStart.pins = some .start ∧
    decodePins (port []).assertRst.pins = some (.reset 0) ∧
    decodePins (port []).assertRst.assertStart.pins = some (.reset 1) := by decide
theorem witness_StepRuns_window : running.rst = false ∧ running.start = false ∧
    running.window = some { sampled := [0x33], left := 1 } := by decide
theorem witness_StepRuns_bench :
    (fun s : State => s.rst = false ∧ s.start = false ∧ s.window = none ∧ decode s.bench = .ok .crcInit)
      { port [] with bench := [26] } := by decide
theorem witness_StepRuns_idle : State.reset.rst = false ∧ State.reset.start = false ∧
    State.reset.window = none ∧ State.reset.bench = [] := by decide
theorem witness_StepRuns_rejected :
    (fun s : State => s.rst = false ∧ s.start = false ∧ s.window = none ∧ s.bench ≠ [] ∧
      decode s.bench = .error .trailingBytes) { port [] with bench := [26, 0] } := by decide
theorem witness_TableWord : decodeTableWord 8 0x02 = some (.reset 0) ∧
    decodeTableWord 32 0x3A9C1D4E = some (.classify 0x3A9C 0x1D4E) := by decide
theorem witness_TableWord_patterns :
    (0x3475 * 2 ^ 148 + 2 ^ 148 - 1) / 2 ^ 148 = 0x3475 ∧ (0x3476 * 2 ^ 148) / 2 ^ 148 ≠ 0x3475 ∧
    (0x54 : Byte) ∉ [0x01, 0x02, 0x03, 0x05, 0x55, 0xAA] ∧ (0x3474 : BitVec 16) ≠ 0x3475 := by decide
theorem witness_Hexdecs_ends : (port []).presentable = true ∧ (port (text 64 0)).presentable = true ∧
    (port (text 64 0)).mem.rawLen = resetParams.lmax := by decide +kernel
theorem witness_Hexint : (syms 6 0xFFFFFF).length = 6 ∧ .other ∉ syms 6 0xFFFFFF := by decide
theorem witness_HasResync : (port []).params.hasResync = true := by decide
theorem witness_Shifts : syms 1 0xF ≠ [] ∧ .other ∉ syms 1 0xF := by decide
theorem witness_Resync_state : (port (text 64 0)).params.hasResync = true ∧
    (port (text 64 0)).presentable = true := by decide +kernel
theorem witness_Resync_step1 : matchSync (hexdecs (text 4 0x3475)) = true := by decide
theorem witness_Resync_step3 :
    (fun d : List DecSymbol => matchSync d = false ∧ fill5 (d.drop 4) = true ∧
      matchSync (strip5 (d.drop 4)) = true) (hexdecs (text 10 0xdead553475)) := by decide
theorem witness_Resync_step3_fails :
    (fun d : List DecSymbol => matchSync d = false ∧ fill5 (d.drop 4) = true ∧
      matchSync (strip5 (d.drop 4)) = false) (hexdecs (text 6 0xdead55)) := by decide
theorem witness_Resync_step4_nonhex :
    (fun d : List DecSymbol => matchSync d = false ∧ fill5 (d.drop 4) = false ∧ fillA (d.drop 4) = true ∧
      .other ∈ d.drop 4) (hexdecs (text 6 0xdeadaa ++ [0x71])) := by decide
theorem witness_Resync_step4_left :
    (fun d : List DecSymbol => matchSync d = false ∧ fill5 (d.drop 4) = false ∧ fillA (d.drop 4) = true ∧
      .other ∉ d.drop 4 ∧ matchSync (strip5 (shl1 (d.drop 4))) = true)
      (hexdecs (text 11 0xdeadaa9a3a8)) := by decide
theorem witness_Resync_step4_right :
    (fun d : List DecSymbol => matchSync d = false ∧ fill5 (d.drop 4) = false ∧ fillA (d.drop 4) = true ∧
      .other ∉ d.drop 4 ∧ matchSync (strip5 (shl1 (d.drop 4))) = false ∧
      matchSync (strip5 (shr1 (d.drop 4))) = true) (hexdecs (text 10 0xdeadaa68ea)) := by decide
theorem witness_Resync_step4_fails :
    (fun d : List DecSymbol => matchSync d = false ∧ fill5 (d.drop 4) = false ∧ fillA (d.drop 4) = true ∧
      .other ∉ d.drop 4 ∧ matchSync (strip5 (shl1 (d.drop 4))) = false ∧
      matchSync (strip5 (shr1 (d.drop 4))) = false) (hexdecs (text 6 0xdeadaa)) := by decide
theorem witness_Resync_step5 :
    (fun d : List DecSymbol => matchSync d = false ∧ fill5 (d.drop 4) = false ∧ fillA (d.drop 4) = false)
      (hexdecs (text 8 0xdead3475)) := by decide
theorem witness_ResyncAnchored : resync (hexdecs (text 10 0xdead553475)) = some (syms 4 0x3475) := by decide
theorem witness_AtMostOne : .other ∉ syms 7 0xaa9a3a8 ∧ fillA (syms 7 0xaa9a3a8) = true ∧
    matchSync (strip5 (shl1 (syms 7 0xaa9a3a8))) = true := by decide
theorem witness_Filler : (syms 4 0xdead).length = 4 ∧ matchSync (syms 4 0xdead) = false := by decide
theorem witness_ShiftedFrame : (syms 4 0xdead).length = 4 ∧ matchSync (syms 4 0xdead) = false ∧
    .other ∉ syms 41 frameA ∧ matchSync (syms 41 frameA) = true := by decide
theorem witness_LeftCorrection : matchSync (syms 11 0xdeadaa9a3a8) = false ∧
    fillA ((syms 11 0xdeadaa9a3a8).drop 4) = true ∧ .other ∉ (syms 11 0xdeadaa9a3a8).drop 4 ∧
    matchSync (strip5 (shl1 ((syms 11 0xdeadaa9a3a8).drop 4))) = true := by decide
theorem witness_ResyncFailed_without_unit : (bare (text 4 0xdead)).params.hasResync = false ∧
    after (exec .start (bare (text 4 0xdead))) (·.done) = some true := by decide
theorem witness_ReadyWindow : windowReady (syms 41 frameA) = true ∧ windowReady (syms 40 0) = false ∧
    windowReady (syms 40 0 ++ [.other]) = false := by decide
theorem witness_FrameVector : IsFrameVector (holding (syms 41 frameA)).adjusted fvA := by
  unfold IsFrameVector
  decide
theorem witness_Syncword : resync (hexdecs (text 41 frameA)) = some (syms 41 frameA) ∧
    IsFrameVector (syms 41 frameA) fvA := by
  unfold IsFrameVector
  decide
theorem witness_CrcSpan : ((List.range 28).map fun i => BitVec.ofNat 4 (8 + i)).length = 28 ∧
    slice marker.adjusted 8 28 = ((List.range 28).map fun i => BitVec.ofNat 4 (8 + i)).map .hex := by
  decide
theorem witness_ShiftedClasses : (0 : BitVec 16).toNat = 2 * (0 : BitVec 16).toNat ∧
    (0 : BitVec 16).toNat = (0 : BitVec 16).toNat / 2 := by decide
theorem witness_Decode_short : (holding (syms 40 0)).adjusted.length < 41 := by decide
theorem witness_Decode_badhex : 41 ≤ (holding (syms 40 0 ++ [.other])).adjusted.length ∧
    .other ∈ (holding (syms 40 0 ++ [.other])).adjusted.take 41 := by decide
theorem witness_DecodeIgnores :
    41 ≤ (holding (syms 41 frameA)).adjusted.length ∧
    41 ≤ (holding (syms 41 frameA ++ [.other])).adjusted.length ∧
    (holding (syms 41 frameA)).adjusted.take 41 =
      (holding (syms 41 frameA ++ [.other])).adjusted.take 41 := by decide
theorem witness_DecodeDoesNotTestTheSyncword :
    (fun s t : State => .other ∉ s.adjusted.take 4 ∧ .other ∉ t.adjusted.take 4 ∧
      s.adjusted.length = t.adjusted.length ∧ s.adjusted.drop 4 = t.adjusted.drop 4)
      (holding (syms 41 0)) (holding (syms 41 (0x3475 * 16 ^ 37))) := by decide
theorem witness_Frame_and_Start :
    (fun s : State => s.params.hasResync = true ∧ s.presentable = true ∧ s.window = none ∧
      s.params.lat = some 0) (port (text 41 frameA)) := by decide
theorem witness_Start_without_unit :
    (fun s : State => s.params.hasResync = false ∧ s.presentable = true ∧ s.window = none ∧
      s.params.lat = some 0) (bare (text 41 frameA)) := by decide
theorem witness_TransactionDependsOnItsInput :
    (fun s t : State => s.params = t.params ∧ s.params.lat = some 0 ∧ s.presentable = true ∧
      t.presentable = true ∧ s.window = none ∧ t.window = none ∧ s.rawString = t.rawString ∧
      s.record ≠ t.record) (port (text 5 0x34751)) (finishedA.present (text 5 0x34751)) := by
  decide
theorem witness_EveryTransactionEnds :
    (fun s : State => s.rst = false ∧ s.window = none ∧ s.presentable = true ∧ s.params.lat = some 3)
      { port [0x33] with params := { resetParams with lat := some 3 } } ∧
    (fun s : State => s.rst = false ∧ s.window = none ∧ s.presentable = true ∧ s.params.lat = none)
      { port [0x33] with params := { resetParams with lat := none } } := by decide
theorem witness_Failure_resync : (port []).params.lat = some 0 ∧
    after (exec .start (port [])) (·.status) = some .resyncFailed := by decide
theorem witness_Failure_short :
    after (exec .start (port (text 40 (frameA / 16)))) (·.status) = some .tooShort := by decide
theorem witness_Failure_badhex :
    after (exec .start (port (text 40 (frameA / 16) ++ [0x7A]))) (·.status) = some .badHex := by
  decide
theorem witness_ResetWins : (port []).assertRst.rst = true ∧ running.assertRst.rst = true := by decide
theorem witness_Hazards_start : running.assertStart.rst = false ∧ running.assertStart.start = true ∧
    running.assertStart.window = some { sampled := [0x33], left := 1 } := by decide
theorem witness_Hazards_changed : (running.present [0x34]).rst = false ∧
    (running.present [0x34]).start = false ∧
    (running.present [0x34]).window = some { sampled := [0x33], left := 1 } ∧
    (running.present [0x34]).rawString ≠ [0x33] := by decide
theorem witness_Hazards_unpresentable : (running.present (text 65 0)).presentable = false ∧
    (running.present (text 65 0)).window = some { sampled := [0x33], left := 1 } := by decide +kernel
theorem witness_TooLong :
    (fun s : State => s.params.lmax < s.mem.rawLen ∧ s.params.hasResync = true ∧ s.window = none)
      (port (text 65 0)) := by decide
theorem witness_TooLong_without_unit :
    (fun s : State => s.params.lmax < s.mem.rawLen ∧ s.params.hasResync = false ∧ s.window = none)
      (bare (text 65 0)) := by decide
theorem witness_IllShaped : (Instr.hexint (syms 5 0)).wellFormed = false := by decide
theorem witness_Absent : (bare []).params.hasResync = false ∧ (bare []).window = none ∧
    (bare []).presentable = true := by decide
theorem witness_Unstated_symbols : .other ∈ [DecSymbol.other] ∧
    (Instr.hexint [.other]).wellFormed = true := by decide
theorem witness_Unstated_without_unit : (bare []).params.hasResync = false ∧
    windowReady (bare []).adjusted = false ∧ spanReady (bare []).adjusted = false := by decide
theorem witness_Unstated_window : windowReady (holding []).adjusted = false ∧
    spanReady (holding (syms 35 0)).adjusted = false ∧
    spanReady (holding (syms 36 0)).adjusted = true := by decide
theorem witness_OnlyTheNamed : exec .crcInit (port []) = .next { port [] with crc := 0x1D0F } := rfl
theorem witness_OnlyTheNamed_tick :
    after (tick { sampled := [0x33], left := 1 } running) (fun t => (t.done, t.window)) =
      some (false, some { sampled := [0x33], left := 0 }) ∧
    after (tick { sampled := [0x33], left := 0 } running) (fun t => (t.done, t.window)) =
      some (true, none) := by decide
theorem witness_OnlyTheNamed_step :
    after (step { port [] with bench := [26] }) (·.bench) = some [] ∧
    after (step { running with bench := [26] }) (·.bench) = some [26] ∧
    after (step { (port []).assertStart with bench := [26] }) (·.bench) = some [26] := by decide
theorem witness_Readable : State.reset.done = false ∧ finishedA.done = true ∧ finishedA.status = .ok ∧
    ({ finishedA with status := .tooShort } : State).status ≠ .resyncFailed := by decide
theorem witness_Buffers : finishedA.memWf = true ∧ exec .crcInit finishedA =
    .next { finishedA with crc := 0x1D0F, result := .none } := ⟨by decide, rfl⟩
theorem witness_HostInv : finishedA.HostInv ∧ step finishedA = .next finishedA :=
  ⟨{ bench_empty := by decide
     buffers := by decide
     window_done := by decide
     record := fun _ => by
       unfold State.RecordAgrees
       decide +kernel
     anchored := fun _ _ => by decide
     no_resync := by decide }, rfl⟩
theorem witness_HostInv_present : ([] : List Byte).length ≤ finishedA.params.lmax ∧
    (text 64 0).length ≤ finishedA.params.lmax := by decide

end Sys2Proof.Tests
end

section
/-! The codes of the two-bit flags `STATUS` and `CRC_RESULT` (30_encoding.md rules R76, R77 and R79): for each
flag the names and the four two-bit words correspond one to one. The first inverse is a split over the names, the
second over the words. -/

namespace Sys2Proof.Machine

/-- The split over the codes of a two-bit flag. -/
theorem twoBitCode_cases (c : BitVec 2) : c = 0b00 ∨ c = 0b01 ∨ c = 0b10 ∨ c = 0b11 := by
  bv_omega

@[simp] theorem Status.ofCode_code (o : Status) : Status.ofCode o.code = o := by
  cases o <;> rfl

@[simp] theorem Status.code_ofCode (c : BitVec 2) : (Status.ofCode c).code = c := by
  obtain rfl | rfl | rfl | rfl := twoBitCode_cases c <;> rfl

@[simp] theorem CrcClass.ofCode_code (o : CrcClass) : CrcClass.ofCode o.code = o := by
  cases o <;> rfl

@[simp] theorem CrcClass.code_ofCode (c : BitVec 2) : (CrcClass.ofCode c).code = c := by
  obtain rfl | rfl | rfl | rfl := twoBitCode_cases c <;> rfl

/-- Settles O54: the table of R76 is the definition of `Status.code`, and `Status.ofCode` inverts it on both
sides. -/
theorem statusCodesAreTheFour : Obligations.StatusCodesAreTheFour :=
  ⟨rfl, rfl, rfl, rfl, Status.ofCode_code, Status.code_ofCode⟩

/-- Settles O55: the table of R77 is the definition of `CrcClass.code`, and `CrcClass.ofCode` inverts it on both
sides. -/
theorem classCodesAreTheFour : Obligations.ClassCodesAreTheFour :=
  ⟨rfl, rfl, rfl, rfl, CrcClass.ofCode_code, CrcClass.code_ofCode⟩

end Sys2Proof.Machine
end

section
/-! `HEXDEC` and `HEXINT` (40_hexdec.md rules R100 and R103): the decoder's classes by character code, and the
integer of a sequence as its positional value. Both operations write `result` and nothing else. -/

namespace Sys2Proof.Machine

/-! ### HEXDEC -/

theorem exec_hexdec (c : Byte) (s : State) :
    exec (.hexdec c) s = .next { s with result := .symbol (hexdec c) } := rfl

/-- The model compares character codes as 8-bit words, which is to compare them as numbers. -/
theorem hexdec_eq_of_code (c : Byte) :
    hexdec c =
      if 0x30 ≤ c.toNat ∧ c.toNat ≤ 0x39 then .hex (c.extractLsb' 0 4)
      else if 0x41 ≤ c.toNat ∧ c.toNat ≤ 0x46 then .hex (c.extractLsb' 0 4 + 9)
      else if 0x61 ≤ c.toNat ∧ c.toNat ≤ 0x66 then .hex (c.extractLsb' 0 4 + 9)
      else .other := by
  simp only [hexdec, BitVec.le_def, BitVec.reduceToNat]

/-! ### HEXINT -/

theorem wellFormed_hexint_iff (x : List DecSymbol) :
    (Instr.hexint x).wellFormed = true ↔ x.length = 1 ∨ x.length = 2 ∨ x.length = 4 ∨ x.length = 6 := by
  simp [Instr.wellFormed, or_assoc]

/-- Under the two preconditions of R103 `HEXINT` returns the vector view of its operand. -/
theorem exec_hexint (x : List DecSymbol) (s : State) (hw : (Instr.hexint x).wellFormed = true)
    (hx : allOk x = true) :
    exec (.hexint x) s = .next { s with result := .bits (4 * x.length) (vec x) } :=
  (if_pos hw).trans (if_pos hx)

/-- The sum of R103, for a sequence of any length: `hexNat` adds the nibbles by Horner's rule, and the sum takes
its first symbol off as `hexNat` does. -/
theorem hexNat_eq_sum (x : List DecSymbol) :
    hexNat x = ((List.range x.length).map fun i =>
      (x.getD i .other).nib.toNat * 16 ^ (x.length - 1 - i)).sum := by
  induction x with
  | nil => rfl
  | cons y ys ih =>
    rw [Laws.hexNat_cons, ih, List.length_cons, List.range_succ_eq_map]
    simp [Function.comp_def, Nat.sub_sub, Nat.add_comm 1]

/-! ### The obligations -/

/-- Settles O8: the vector view is the integer; its value is the positional sum, and `Laws.getElem_vec` reads each
symbol of the operand back out of it. -/
theorem hexintIsThePositionalValue : Obligations.HexintIsThePositionalValue := by
  intro x s hn hx
  refine ⟨vec x, ?runs, ?value, ?nibbles⟩
  case runs => exact exec_hexint x s ((wellFormed_hexint_iff x).2 hn) ((Laws.allOk_iff x).2 hx)
  case value => rw [Laws.vec_toNat, hexNat_eq_sum]
  case nibbles => exact Laws.getElem_vec x hx

/-- Settles O6: `HEXDEC` returns what the decoder gives on the code as a number. -/
theorem hexdecDecodesTheThreeClasses : Obligations.HexdecDecodesTheThreeClasses := by
  intro c s
  rw [exec_hexdec, hexdec_eq_of_code]

end Sys2Proof.Machine
end

section
/-! The RESYNC unit (41_resync.md rules R111 to R125), in a block that has it (R7). First what each operation
answers there and what it writes; then the functions behind the operations, each said once; then the statements. -/

namespace Sys2Proof.Machine

/-! ### What the operations of the unit answer -/

/-- A one-bit shift of a hexadecimal sequence draws no free value. -/
theorem runShift_of_hex (f : List DecSymbol → List DecSymbol) {x : List DecSymbol} (s : State)
    (hx : .other ∉ x) : runShift f x s = .next { s with result := .symbols (f x) } :=
  if_pos ((Laws.allOk_iff x).2 hx)

section UnitPresent

variable {s : State} (hu : s.params.hasResync = true)
include hu

theorem exec_matchsync (x : List DecSymbol) :
    exec (.matchsync x) s = .next { s with result := .flag (matchSync x) } :=
  Laws.withResync_of_present _ hu

theorem exec_fill5 (x : List DecSymbol) :
    exec (.fill5 x) s = .next { s with result := .flag (fill5 x) } :=
  Laws.withResync_of_present _ hu

theorem exec_filla (x : List DecSymbol) :
    exec (.filla x) s = .next { s with result := .flag (fillA x) } :=
  Laws.withResync_of_present _ hu

theorem exec_strip5 (x : List DecSymbol) :
    exec (.strip5 x) s = .next { s with result := .symbols (strip5 x) } :=
  Laws.withResync_of_present _ hu

/-- Under the two preconditions of R116 `SHL1` returns the shifted sequence. -/
theorem exec_shl1 {x : List DecSymbol} (hne : x ≠ []) (hx : .other ∉ x) :
    exec (.shl1 x) s = .next { s with result := .symbols (shl1 x) } := by
  have hw : (Instr.shl1 x).wellFormed = true := decide_eq_true (List.length_pos_iff.2 hne)
  exact (Laws.withResync_of_present _ hu).trans ((if_pos hw).trans (runShift_of_hex _ s hx))

/-- Under the two preconditions of R117 `SHR1` returns the shifted sequence. -/
theorem exec_shr1 {x : List DecSymbol} (hne : x ≠ []) (hx : .other ∉ x) :
    exec (.shr1 x) s = .next { s with result := .symbols (shr1 x) } := by
  have hw : (Instr.shr1 x).wellFormed = true := decide_eq_true (List.length_pos_iff.2 hne)
  exact (Laws.withResync_of_present _ hu).trans ((if_pos hw).trans (runShift_of_hex _ s hx))

/-- `RESYNC` on a presentable port always completes with what the function `resync` gives on the decoded string,
writes the adjusted buffer alone, and where it returns a string leaves that string in the buffer. -/
theorem exec_resync (hp : s.presentable = true) :
    ∃ t, exec .resync s = .next t ∧ OnlyAdjWritten s t ∧
      t.result = .adjusted (resync (hexdecs s.rawString)) ∧
      ∀ a, resync (hexdecs s.rawString) = some a → t.adjusted = a ∧ t.mem.adjLen = a.length := by
  cases h : resync (hexdecs s.rawString) with
  | none =>
    refine ⟨s.unspecifyAdj.returns (.adjusted none), ?_, rfl, rfl, nofun⟩
    simp only [exec, execResync, Laws.withResync_of_present _ hu, Laws.withRaw_of_presentable _ hp, h]
  | some a =>
    refine ⟨(s.writeAdj a).returns (.adjusted (some a)), ?_, rfl, rfl, ?_⟩
    · simp only [exec, execResync, Laws.withResync_of_present _ hu, Laws.withRaw_of_presentable _ hp, h]
    · rintro _ ⟨⟩
      exact ⟨(Laws.adjusted_of_mem (returns_mem _ _)).trans (Laws.writeAdj_adjusted s a), rfl⟩

end UnitPresent

/-! ### The matchers (R111 to R113) -/

theorem matchSync_eq_decide (x : List DecSymbol) :
    matchSync x = decide (x.take 4 = [.hex 3#4, .hex 4#4, .hex 7#4, .hex 5#4]) :=
  Bool.eq_iff_iff.2 ((Laws.matchSync_iff x).trans decide_eq_true_iff.symm)

theorem fill5_eq_decide (x : List DecSymbol) :
    fill5 x = decide (x.take 2 = [.hex 5#4, .hex 5#4]) :=
  Bool.eq_iff_iff.2 ((Laws.fill5_iff x).trans decide_eq_true_iff.symm)

theorem fillA_eq_decide (x : List DecSymbol) :
    fillA x = decide (x.take 2 = [.hex 10#4, .hex 10#4]) :=
  Bool.eq_iff_iff.2 ((Laws.fillA_iff x).trans decide_eq_true_iff.symm)

/-- The two fillers differ in their first symbol. -/
theorem not_fill5_and_fillA (x : List DecSymbol) : ¬ (fill5 x = true ∧ fillA x = true) := by
  rintro ⟨h5, hA⟩
  rw [Laws.fill5_iff] at h5
  rw [Laws.fillA_iff, h5] at hA
  exact absurd hA (by decide)

/-! ### STRIP5 (R115) -/

/-- `STRIP5` drops the fives before the first symbol that is no five. -/
theorem strip5_eq_drop (x : List DecSymbol) :
    ∃ k, k ≤ x.length ∧ strip5 x = x.drop k ∧ (∀ i, i < k → x[i]? = some (.hex 5#4)) ∧
      x[k]? ≠ some (.hex 5#4) := by
  induction x with
  | nil => exact ⟨0, le_rfl, rfl, by simp, by simp⟩
  | cons y ys ih =>
    by_cases hy : y.isNib 5#4 = true
    · obtain ⟨k, hk, hdrop, hfives, hstop⟩ := ih
      refine ⟨k + 1, Nat.succ_le_succ hk, (if_pos hy).trans hdrop, fun i hi => ?_, hstop⟩
      cases i with
      | zero => exact congrArg some ((Laws.isNib_iff y _).1 hy)
      | succ i => exact hfives i (Nat.lt_of_succ_lt_succ hi)
    · refine ⟨0, Nat.zero_le _, if_neg hy, by simp, fun h => hy ?_⟩
      exact (Laws.isNib_iff y _).2 (Option.some.inj h)

/-! ### The one-bit shifts (R116, R117) -/

/-- The bits of `NIBS(v, N)` from the front are those of `v`. -/
theorem getMsbD_vec_nibs (n : Nat) (v : BitVec (4 * n)) (k : Nat) :
    (vec (nibs n v)).getMsbD k = v.getMsbD k := by
  simp only [BitVec.getMsbD, BitVec.getLsbD, Laws.vec_nibs, Laws.nibs_length]

theorem getMsbD_vec_shl1 (x : List DecSymbol) (k : Nat) :
    (vec (shl1 x)).getMsbD k = (vec x).getMsbD (k + 1) := by
  rw [shl1, getMsbD_vec_nibs, BitVec.getMsbD_shiftLeft, Nat.add_comm]

theorem getMsbD_vec_shr1_zero (x : List DecSymbol) : (vec (shr1 x)).getMsbD 0 = false := by
  rw [shr1, getMsbD_vec_nibs, BitVec.getMsbD_ushiftRight]
  simp

theorem getMsbD_vec_shr1_succ (x : List DecSymbol) (k : Nat) (hk : k + 1 < 4 * x.length) :
    (vec (shr1 x)).getMsbD (k + 1) = (vec x).getMsbD k := by
  rw [shr1, getMsbD_vec_nibs, BitVec.getMsbD_ushiftRight]
  simp [hk]

/-! ### The steps of RESYNC (R121 to R125) -/

theorem resync_of_matchSync {d : List DecSymbol} (h : matchSync d = true) : resync d = some d := if_pos h

theorem resync_of_not_matchSync {d : List DecSymbol} (h : matchSync d = false) :
    resync d = resyncRemainder (d.drop 4) := by
  simp only [resync, h, Bool.false_eq_true, if_false, Config.leadDrop]

section Remainder

variable {rem : List DecSymbol}

/-- Step 3 (R123). -/
theorem resyncRemainder_of_fill5 (h5 : fill5 rem = true) :
    resyncRemainder rem = if matchSync (strip5 rem) then some (strip5 rem) else none := if_pos h5

/-- Step 4 (R124) where its precondition fails. -/
theorem resyncRemainder_of_fillA_of_other (h5 : fill5 rem = false) (hA : fillA rem = true)
    (ho : .other ∈ rem) : resyncRemainder rem = none := by
  have hk : allOk rem = false := Bool.eq_false_iff.2 fun h => (Laws.allOk_iff rem).1 h ho
  simp [resyncRemainder, h5, hA, hk]

/-- Step 4 (R124) on a hexadecimal remainder: the left correction, then the right one. -/
theorem resyncRemainder_of_fillA (h5 : fill5 rem = false) (hA : fillA rem = true) (ho : .other ∉ rem) :
    resyncRemainder rem =
      if matchSync (strip5 (shl1 rem)) then some (strip5 (shl1 rem))
      else if matchSync (strip5 (shr1 rem)) then some (strip5 (shr1 rem))
      else none := by
  simp [resyncRemainder, h5, hA, (Laws.allOk_iff rem).2 ho]

/-- Step 5 (R125). -/
theorem resyncRemainder_of_no_filler (h5 : fill5 rem = false) (hA : fillA rem = false) :
    resyncRemainder rem = none := by
  simp [resyncRemainder, h5, hA]

end Remainder

/-! ### The obligations -/

/-- Settles O14: `exec_resync` reduces each case to the value of `resync`, and that value is the equation of the
step which matches. -/
theorem resyncTakesTheFirstMatchingStep : Obligations.ResyncTakesTheFirstMatchingStep := by
  intro s hu hp
  obtain ⟨t, hexec, honly, hres, hadj⟩ := exec_resync hu hp
  refine ⟨t, hexec, honly, ?_⟩
  intro d rem gives nothing sl sr
  have gives_of : ∀ a, resync d = some a → gives a := fun a h => ⟨hres.trans (congrArg _ h), hadj a h⟩
  have nothing_of : resync d = none → nothing := fun h => hres.trans (congrArg _ h)
  refine ⟨fun hd => gives_of d (resync_of_matchSync hd), fun hd h5 => ?fives, fun hd h5 hA => ?tens,
    fun hd h5 hA => ?neither⟩
  case fives =>
    have e := (resync_of_not_matchSync hd).trans (resyncRemainder_of_fill5 h5)
    exact ⟨fun h => gives_of _ (e.trans (if_pos h)),
      fun h => nothing_of (e.trans (if_neg (Bool.eq_false_iff.1 h)))⟩
  case tens =>
    have e := fun ho => (resync_of_not_matchSync hd).trans (resyncRemainder_of_fillA h5 hA ho)
    refine ⟨fun ho => ?_, fun ho hl => ?_, fun ho hl hr => ?_, fun ho hl hr => ?_⟩
    · exact nothing_of ((resync_of_not_matchSync hd).trans (resyncRemainder_of_fillA_of_other h5 hA ho))
    · exact gives_of sl ((e ho).trans (if_pos hl))
    · exact gives_of sr ((e ho).trans ((if_neg (Bool.eq_false_iff.1 hl)).trans (if_pos hr)))
    · exact nothing_of ((e ho).trans
        ((if_neg (Bool.eq_false_iff.1 hl)).trans (if_neg (Bool.eq_false_iff.1 hr))))
  case neither =>
    exact nothing_of ((resync_of_not_matchSync hd).trans (resyncRemainder_of_no_filler h5 hA))

/-- Settles O12: the value is `Laws.hexNat_shl1`, and the bits from the front are those of the vector shifted
left. -/
theorem shl1MovesEveryBitForward : Obligations.Shl1MovesEveryBitForward := by
  intro x s hu hne hx
  refine ⟨shl1 x, exec_shl1 hu hne hx, Laws.shl1_length x, Laws.other_notMem_nibs _ _, Laws.hexNat_shl1 x,
    fun k _ => getMsbD_vec_shl1 x k, ?last⟩
  case last =>
    rw [getMsbD_vec_shl1]
    exact BitVec.getMsbD_of_ge _ _ (by omega)

/-- Settles O13: the value is `Laws.hexNat_shr1`, and the bits from the front are those of the vector shifted
right. -/
theorem shr1MovesEveryBitBack : Obligations.Shr1MovesEveryBitBack := by
  intro x s hu hne hx
  exact ⟨shr1 x, exec_shr1 hu hne hx, Laws.shr1_length x, Laws.other_notMem_nibs _ _, Laws.hexNat_shr1 x,
    getMsbD_vec_shr1_succ x, getMsbD_vec_shr1_zero x⟩

/-- Settles O11: the index is the number of symbols `strip5` drops. -/
theorem strip5RemovesExactlyTheLeadingFives : Obligations.Strip5RemovesExactlyTheLeadingFives := by
  intro x s hu
  obtain ⟨k, hk, hdrop, hfives, hstop⟩ := strip5_eq_drop x
  exact ⟨k, hk, by rw [exec_strip5 hu, hdrop], hfives, hstop⟩

/-- Settles O10: each filler test is a comparison of the first two symbols. -/
theorem fillersTestTheFirstTwoSymbols : Obligations.FillersTestTheFirstTwoSymbols := by
  intro x s hu
  exact ⟨by rw [exec_fill5 hu, fill5_eq_decide], by rw [exec_filla hu, fillA_eq_decide],
    not_fill5_and_fillA x⟩

/-- Settles O9: the matcher is a comparison of the first four symbols. -/
theorem matchsyncTestsTheFirstFourSymbols : Obligations.MatchsyncTestsTheFirstFourSymbols := by
  intro x s hu
  rw [exec_matchsync hu, matchSync_eq_decide]

end Sys2Proof.Machine
end

section
/-! The CRC span select (42_fieldmux.md rule R144) on a ready window. A frame vector of the adjusted string (R55)
gives every slice of the first 41 symbols as bits of it; the window is ready because of that, and the span is one of
those slices. -/

namespace Sys2Proof.Machine

/-- On a ready window `SEL.SPAN` draws no free value. -/
theorem exec_selSpan_of_windowReady {s : State} (h : windowReady s.adjusted = true) :
    exec .selSpan s = .next { s with result := .nibbles (spanNibbles s.adjusted) } := if_pos h

/-! ### The adjusted string behind a frame vector (R55) -/

section FrameVector

variable {adj : List DecSymbol} {fv : BitVec 164} (h : IsFrameVector adj fv)
include h

/-- A slice of the window (R130) holds the bits of the frame vector from nibble `a` on. -/
theorem slice_of_isFrameVector {a n : Nat} (hn : a + n ≤ 41) :
    slice adj a n = (List.range n).map fun i => .hex (fv.extractLsb' (160 - 4 * (a + i)) 4) := by
  apply List.ext_getElem?
  intro i
  rw [slice, List.getElem?_take, List.getElem?_map]
  split
  next hi => rw [List.getElem?_drop, h (a + i) (by omega), List.getElem?_range hi, Option.map_some]
  next hi => rw [List.getElem?_eq_none (by simpa using hi), Option.map_none]

/-- The first 41 symbols are there and hexadecimal. -/
theorem windowReady_of_isFrameVector : windowReady adj = true := by
  have hlen : 40 < adj.length := (List.getElem?_eq_some_iff.1 (h 40 (by decide))).1
  have htake : adj.take 41 = _ := slice_of_isFrameVector h (Nat.le_refl (0 + 41))
  refine (Laws.windowReady_iff adj).2 ⟨hlen, ?_⟩
  simp [htake]

/-- Nibble `8 + i` stands at bit `160 - 4 * (8 + i) = 128 - 4 * i`. -/
theorem spanNibbles_of_isFrameVector : spanNibbles adj = spanOfVector fv := by
  have hslice := slice_of_isFrameVector h (show 8 + 28 ≤ 41 by decide)
  have hbit : ∀ i, 160 - 4 * (8 + i) = 128 - 4 * i := by omega
  simp only [hbit] at hslice
  calc spanNibbles adj
    _ = (slice adj 8 28).map DecSymbol.nib := rfl
    _ = spanOfVector fv := by rw [hslice, List.map_map]; rfl

end FrameVector

/-! ### The obligation -/

/-- Settles O24: a frame vector makes the window ready, so the select returns the span's nibbles, and these are the
vector's bits. -/
theorem spanSelectReturnsTheSpan : Obligations.SpanSelectReturnsTheSpan := by
  intro s fv h
  rw [exec_selSpan_of_windowReady (windowReady_of_isFrameVector h), spanNibbles_of_isFrameVector h]

end Sys2Proof.Machine
end

section
/-! The CRC generator (44_crc16.md): `CRC.BIT` bit by bit (R162), and `CRC.SPAN` over a span that is there and
hexadecimal (R165). -/

namespace Sys2Proof.Machine

/-! ### One bit (R162) -/

theorem exec_crcBit (d : BitVec 1) (s : State) :
    exec (.crcBit d) s = .next { s with crc := crcBit s.crc (d.getLsbD 0), result := .none } := rfl

/-- The polynomial `0x1021` stands at bits 0, 5 and 12 (R160). -/
theorem getLsbD_crcPoly {i : Nat} (hi : i < 16) :
    Config.crcPoly.getLsbD i = decide (i = 0 ∨ i = 5 ∨ i = 12) := by
  decide +revert

/-- The register shifts left, bringing in a 0, and the feedback is added where the polynomial has a 1. -/
theorem getLsbD_crcBit (c : BitVec 16) (d : Bool) {i : Nat} (hi : i < 16) :
    (crcBit c d).getLsbD i =
      ((decide (0 < i) && c.getLsbD (i - 1)) ^^
        ((c.getLsbD 15 ^^ d) && decide (i = 0 ∨ i = 5 ∨ i = 12))) := by
  have hshift : (c <<< 1).getLsbD i = (decide (0 < i) && c.getLsbD (i - 1)) := by
    rw [BitVec.getLsbD_shiftLeft, decide_eq_true hi, Bool.true_and]
    rcases i with _ | i <;> simp
  unfold crcBit
  split
  next hfb => rw [BitVec.getLsbD_xor, hshift, getLsbD_crcPoly hi, hfb, Bool.true_and]
  next hfb => rw [hshift, Bool.eq_false_iff.2 hfb, Bool.false_and, Bool.xor_false]

/-- Settles O29: `getLsbD_crcBit` at bit 0, at the two other bits of the polynomial, and at a bit outside it. -/
theorem crcBitShiftsAndAddsThePolynomial : Obligations.CrcBitShiftsAndAddsThePolynomial := by
  intro d s
  refine ⟨crcBit s.crc (d.getLsbD 0), exec_crcBit d s, ?bit0, ?bit5, ?bit12, fun i h0 hi h5 h12 => ?other⟩
  case bit0 => exact (getLsbD_crcBit _ _ (by decide)).trans (by simp)
  case bit5 => exact (getLsbD_crcBit _ _ (by decide)).trans (by simp)
  case bit12 => exact (getLsbD_crcBit _ _ (by decide)).trans (by simp)
  case other => exact (getLsbD_crcBit _ _ hi).trans (by simp [h0, h0.ne', h5, h12])

/-! ### The span (R165) -/

/-- On a ready span `CRC.SPAN` draws no free value. -/
theorem exec_crcSpan_of_spanReady {s : State} (h : spanReady s.adjusted = true) :
    exec .crcSpan s = .next { s with crc := crcSpan s.adjusted, result := .none } := if_pos h

section HexSpan

variable {adj : List DecSymbol} {ns : List Nib} (hslice : slice adj 8 28 = ns.map .hex)
include hslice

/-- A span of 28 nibbles is there, so the string reaches symbol 35, and none of its symbols is `.other`. -/
theorem spanReady_of_slice (hlen : ns.length = 28) : spanReady adj = true := by
  have hadj : 28 ≤ adj.length - 8 := by simpa [slice, hlen] using congrArg List.length hslice
  refine (Laws.spanReady_iff adj).2 ⟨by omega, ?_⟩
  simp [hslice]

theorem spanNibbles_of_slice : spanNibbles adj = ns :=
  calc spanNibbles adj
    _ = (slice adj 8 28).map DecSymbol.nib := rfl
    _ = ns.map (DecSymbol.nib ∘ .hex) := by rw [hslice, List.map_map]
    _ = ns := List.map_id ns

end HexSpan

/-- Settles O33: 28 nibbles in the span make it ready and are what the register takes; the two corner values are
runs over constant spans. -/
theorem crcSpanRunsOverTheSpan : Obligations.CrcSpanRunsOverTheSpan := by
  refine ⟨fun s ns hlen hslice => ?run, ?zeros, ?fifteens⟩
  case run =>
    rw [exec_crcSpan_of_spanReady (spanReady_of_slice hslice hlen), crcSpan, spanNibbles_of_slice hslice]
    rfl
  case zeros => decide +kernel
  case fifteens => decide +kernel

end Sys2Proof.Machine
end

section
/-! The CRC comparator (45_classify.md): the model compares bit strings, the rule integers. Each arm of `classify` is
read as an equation of integers (R180), and each shifted equation as the bits it fixes (R181). -/

namespace Sys2Proof.Machine

/-! ### The parts of a checksum as integers -/

section Parts

variable (x : BitVec 16)

theorem getLsbD_top_eq_false_iff : x.getLsbD 15 = false ↔ x.toNat < 2 ^ 15 := by
  have hmsb : x.getLsbD 15 = x.msb := x.msb_eq_getLsbD_last.symm
  rw [hmsb, BitVec.msb_eq_false_iff_two_mul_lt]
  omega

theorem getLsbD_zero_eq_false_iff : x.getLsbD 0 = false ↔ x.toNat % 2 = 0 := by
  simp [BitVec.getLsbD]

/-- `x[15:1]` drops the lowest bit. -/
theorem toNat_high : (x.extractLsb' 1 15).toNat = x.toNat / 2 := by
  rw [BitVec.extractLsb'_toNat, Nat.shiftRight_eq_div_pow]
  omega

/-- `x[14:0]` drops the top bit. -/
theorem toNat_low : (x.extractLsb' 0 15).toNat = x.toNat % 2 ^ 15 := by
  rw [BitVec.extractLsb'_toNat, Nat.shiftRight_zero]

/-- `{x, 0b0}` keeps the bit shifted out, so at 17 bits it is `2x` itself. -/
theorem toNat_append_zero : (x ++ 0#1).toNat = 2 * x.toNat := by
  rw [BitVec.toNat_append, Nat.shiftLeft_eq]
  simp [Nat.mul_comm]

end Parts

section Comparator

variable (a r : BitVec 16)

/-! ### The arms as integers (R180) -/

theorem shiftedLeftArm_iff : a.setWidth 17 = r ++ 0#1 ↔ a.toNat = 2 * r.toNat := by
  rw [← BitVec.toNat_inj, toNat_append_zero, BitVec.toNat_setWidth_of_le (by decide)]

theorem shiftedRightArm_iff : a = 0#1 ++ r.extractLsb' 1 15 ↔ a.toNat = r.toNat / 2 := by
  have hhalf : (0#1 ++ r.extractLsb' 1 15).toNat = r.toNat / 2 := by
    rw [BitVec.toNat_append, toNat_high]
    simp
  rw [← hhalf]
  exact BitVec.toNat_inj.symm

theorem classify_eq_of_toNat :
    classify a r =
      if a.toNat = r.toNat then .valid
      else if a.toNat = 2 * r.toNat then .shiftedLeft
      else if a.toNat = r.toNat / 2 then .shiftedRight
      else .invalid := by
  simp only [classify, shiftedLeftArm_iff, shiftedRightArm_iff, BitVec.toNat_inj]

/-- `CLASSIFY` alone writes nothing but its value (R33). -/
theorem exec_classify (s : State) :
    exec (.classify a r) s = .next { s with result := .cls (classify a r) } := rfl

/-! ### The bits a shifted equation fixes (R181) -/

theorem eq_double_iff_bits :
    a.toNat = 2 * r.toNat ↔
      r.getLsbD 15 = false ∧ a.extractLsb' 1 15 = r.extractLsb' 0 15 ∧ a.getLsbD 0 = false := by
  rw [← BitVec.toNat_inj, toNat_high, toNat_low, getLsbD_top_eq_false_iff, getLsbD_zero_eq_false_iff]
  omega

theorem eq_half_iff_bits :
    a.toNat = r.toNat / 2 ↔ a.getLsbD 15 = false ∧ a.extractLsb' 0 15 = r.extractLsb' 1 15 := by
  rw [← BitVec.toNat_inj, toNat_high, toNat_low, getLsbD_top_eq_false_iff]
  omega

end Comparator

/-- Settles O36: the class is the integer chain of R180, and each shifted equation is read off the bits. -/
theorem classifyComparesTheShiftsUntruncated : Obligations.ClassifyComparesTheShiftsUntruncated := by
  intro a r s
  refine ⟨?cls, eq_double_iff_bits a r, eq_half_iff_bits a r⟩
  case cls => rw [exec_classify, classify_eq_of_toNat]

end Sys2Proof.Machine
end

section
/-! The composite operations `DECODE`, `FRAME` and `START` (46_decode.md). `DECODE` has three ends, told apart by the
length of the adjusted string and its first 41 symbols; a transaction is RESYNC (or nothing, R198), then one of
them. The record on a ready window is read out of the frame vector of R55. -/

namespace Sys2Proof.Machine

/-! ### The ends of DECODE (R190, R191, R193) -/

section Decode

variable {s : State}

theorem exec_decode_of_short (hlen : s.adjusted.length < 41) :
    exec .decode s = .next (s.unspecifyRecord.returns (.outcome .tooShort)) := by
  have hfail : decodeFailure s.adjusted = some .tooShort := if_pos hlen
  simp only [exec, execDecode, hfail, Failure.status]

theorem exec_decode_of_other (hlen : 41 ≤ s.adjusted.length) (ho : .other ∈ s.adjusted.take 41) :
    exec .decode s = .next (s.unspecifyRecord.returns (.outcome .badHex)) := by
  have hbad : ¬ allOk (s.adjusted.take 41) = true := fun h => (Laws.allOk_iff _).1 h ho
  have hfail : decodeFailure s.adjusted = some .badHex := (if_neg hlen.not_gt).trans (if_neg hbad)
  simp only [exec, execDecode, hfail, Failure.status]

theorem exec_decode_of_windowReady (h : windowReady s.adjusted = true) :
    exec .decode s = .next (s.writeRecord.returns (.outcome .ok)) := by
  simp only [exec, execDecode, (Laws.decodeFailure_none_iff _).2 h]

end Decode

/-- A failed `DECODE` leaves only its own registers free. -/
theorem onlyRecordWritten_unspecifyRecord (s : State) (r : OpResult) :
    OnlyRecordWritten s (s.unspecifyRecord.returns r) := rfl

/-! ### The record on a ready window (R56, R190) -/

section FrameVector

variable {adj : List DecSymbol} {fv : BitVec 164} (h : IsFrameVector adj fv)
include h

/-- The first 41 symbols are the nibbles of the frame vector. -/
theorem take_of_isFrameVector : adj.take 41 = nibs 41 fv := by
  have hslice : adj.take 41 = _ := slice_of_isFrameVector h (Nat.le_refl (0 + 41))
  have hbit : ∀ i, 160 - 4 * (0 + i) = 4 * (41 - 1 - i) := by omega
  simpa only [hbit, nibs] using hslice

/-- A select at nibble `a` reads the bits of the frame vector that have `41 - a - n` nibbles below them. -/
theorem memRead_of_isFrameVector (a n : Nat) (hn : a + n ≤ 41) :
    memRead adj a n = fv.extractLsb' (4 * (41 - a - n)) (4 * n) := by
  have hslice : slice adj a n = slice (nibs 41 fv) a n := by
    rw [← take_of_isFrameVector h, slice, slice, List.drop_take, List.take_take, min_eq_left (by omega)]
  have hvalue := Laws.hexNat_slice (nibs 41 fv) a n ((Laws.nibs_length 41 fv).symm ▸ hn)
  rw [Laws.nibs_length, Laws.hexNat_nibs] at hvalue
  apply BitVec.eq_of_toNat_eq
  rw [memRead, hslice, hvalue, BitVec.toNat_ofNat, BitVec.extractLsb'_toNat, Nat.shiftRight_eq_div_pow,
    Laws.two_pow_nibbles, Laws.two_pow_nibbles, Nat.mod_mod]

/-- The selects of R190 at the offsets of R56, and the two scalings. -/
theorem recordOf_of_isFrameVector :
    recordOf adj =
      { receiverId := fv.extractLsb' 132 16, senderId := fv.extractLsb' 116 16
        u1 := fv.extractLsb' 108 8, u2 := fv.extractLsb' 100 8, u3 := fv.extractLsb' 92 8
        totalAhRaw := fv.extractLsb' 68 24
        totalAhInt := BitVec.ofNat 18 ((fv.extractLsb' 68 24).toNat / 100)
        totalAhFrac := BitVec.ofNat 7 ((fv.extractLsb' 68 24).toNat % 100)
        u4 := fv.extractLsb' 52 16
        currentARaw := fv.extractLsb' 36 16
        currentAInt := BitVec.ofNat 10 ((fv.extractLsb' 36 16).toNat / 100)
        currentAFrac := BitVec.ofNat 7 ((fv.extractLsb' 36 16).toNat % 100)
        battery := fv.extractLsb' 28 8, u5 := fv.extractLsb' 20 8
        crcRx := fv.extractLsb' 4 16, u6 := fv.extractLsb' 0 4 } := by
  simp (disch := decide) only [recordOf, memRead_of_isFrameVector h]
  rfl

theorem crcSpan_of_isFrameVector : crcSpan adj = (spanOfVector fv).foldl crcNib 0x1D0F := by
  rw [crcSpan, spanNibbles_of_isFrameVector h]
  rfl

end FrameVector

/-- Settles O38: a frame vector makes the window ready, and the record and the checksum are read out of it; the two
failures leave DECODE's registers free. -/
theorem decodeMakesTheRecord : Obligations.DecodeMakesTheRecord := by
  refine ⟨fun s fv h => ?record, fun s hlen => ?short, fun s hlen ho => ?badHex⟩
  case record =>
    rw [exec_decode_of_windowReady (windowReady_of_isFrameVector h), State.writeRecord,
      recordOf_of_isFrameVector h, crcSpan_of_isFrameVector h]
    rfl
  case short => exact ⟨_, exec_decode_of_short hlen, onlyRecordWritten_unspecifyRecord s _, rfl⟩
  case badHex => exact ⟨_, exec_decode_of_other hlen ho, onlyRecordWritten_unspecifyRecord s _, rfl⟩

/-! ### The two checks as conditions on indices (R191, R193) -/

theorem other_mem_take_iff (x : List DecSymbol) (n : Nat) :
    .other ∈ x.take n ↔ ∃ i, i < n ∧ x[i]? = some .other := by
  rw [List.mem_iff_getElem?]
  refine exists_congr fun i => ?_
  rw [List.getElem?_take]
  split
  next hi => simp [hi]
  next hi => simp [hi]

/-- Settles O39: the three ends of DECODE, the symbols named by their indices. -/
theorem lengthIsTestedBeforeSymbols : Obligations.LengthIsTestedBeforeSymbols := by
  intro s
  have hother := other_mem_take_iff s.adjusted 41
  have hhex : (∀ i, i < 41 → s.adjusted[i]? ≠ some .other) ↔ .other ∉ s.adjusted.take 41 := by
    simp [hother]
  simp only [← hother, hhex]
  rcases Laws.decodeFailure_cases s.adjusted with ⟨hlen, -⟩ | ⟨hlen, ho, -⟩ | ⟨hlen, ho, -⟩
  · exact ⟨_, exec_decode_of_short hlen, by simp [hlen, hlen.not_ge]⟩
  · exact ⟨_, exec_decode_of_other hlen ho, by simp [hlen, ho]⟩
  · exact ⟨_, exec_decode_of_windowReady ((Laws.windowReady_iff _).2 ⟨hlen, ho⟩), by simp [hlen, ho]⟩

/-! ### The end of a transaction (R194, R216) -/

section Transaction

variable {s : State} (hw : s.window = none)
include hw

/-- RESYNC gave nothing. -/
theorem endsTransaction_resyncFailed :
    EndsTransaction none s ((s.fail .resyncFailed).returns (.outcome .resyncFailed)) :=
  ⟨rfl, hw, rfl, rfl, rfl, rfl, rfl, rfl, rfl, rfl⟩

/-- DECODE on an adjusted string, in each of its ends. -/
theorem endsTransaction_decodeAndFinish (a : List DecSymbol) :
    EndsTransaction (some a) s ((s.writeAdj a).decodeAndFinish.returns
      (.outcome (s.writeAdj a).decodeAndFinish.status)) := by
  have hadj : (s.writeAdj a).adjusted = a := Laws.writeAdj_adjusted s a
  have hends := Laws.decodeAndFinish_cases (s.writeAdj a)
  rw [hadj] at hends
  rcases hends with ⟨hlen, e⟩ | ⟨hlen, ho, e⟩ | ⟨hlen, ho, e⟩ <;> rw [e]
  · exact ⟨rfl, hw, rfl, rfl, rfl, rfl, rfl, rfl, rfl, hadj, rfl,
      fun _ => rfl, fun h => absurd h hlen.not_ge, fun h => absurd h hlen.not_ge⟩
  · exact ⟨rfl, hw, rfl, rfl, rfl, rfl, rfl, rfl, rfl, hadj, rfl,
      fun h => absurd hlen h.not_ge, fun _ _ => rfl, fun _ h => absurd ho h⟩
  · have hready : windowReady (s.writeAdj a).adjusted = true :=
      (Laws.windowReady_iff _).2 (hadj.symm ▸ ⟨hlen, ho⟩)
    exact ⟨rfl, hw, rfl, rfl, rfl, rfl, rfl, rfl, rfl, hadj, rfl,
      fun h => absurd hlen h.not_ge, fun _ h => absurd h ho, fun _ _ => ⟨rfl, hready, rfl, rfl, rfl⟩⟩

/-- HEXDECS and RESYNC, then one of the two ends above. -/
theorem endsTransaction_frame (raw : List Byte) :
    EndsTransaction (resync (hexdecs raw)) s ((s.frame raw).returns (.outcome (s.frame raw).status)) := by
  cases h : resync (hexdecs raw) with
  | none =>
    have hframe : s.frame raw = s.fail .resyncFailed := by simp only [State.frame, h]
    exact hframe ▸ endsTransaction_resyncFailed hw
  | some a =>
    have hframe : s.frame raw = (s.writeAdj a).decodeAndFinish := by simp only [State.frame, h]
    exact hframe ▸ endsTransaction_decodeAndFinish hw a

end Transaction

/-- The priority of R215 names another end for every adjusted string. -/
theorem EndsTransaction.status_ne_resyncFailed {a : List DecSymbol} {s t : State}
    (h : EndsTransaction (some a) s t) : t.status ≠ .resyncFailed := by
  obtain ⟨-, -, -, -, -, -, -, -, -, -, -, hshort, hbad, hok⟩ := h
  intro hst
  rw [hst] at hshort hbad hok
  by_cases hlen : a.length < 41
  · cases hshort hlen
  · by_cases ho : .other ∈ a.take 41
    · cases hbad (by omega) ho
    · cases (hok (by omega) ho).1

/-- Settles O42: with the unit and a presentable port the two conditions of FRAME are met, and `endsTransaction_frame`
is its end. -/
theorem frameResynchronisesThenDecodes : Obligations.FrameResynchronisesThenDecodes := by
  intro s hu hp hw
  refine ⟨_, ?_, endsTransaction_frame hw s.rawString⟩
  simp only [exec, execFrame, Laws.withResync_of_present _ hu, Laws.withRaw_of_presentable _ hp]

/-! ### START (R196, R198) -/

/-- With `LAT = 0` the transaction is one atomic step. -/
theorem exec_start_of_no_delay {s : State} (hw : s.window = none) (hp : s.presentable = true)
    (hlat : s.params.lat = some 0) : exec .start s = .next (s.transaction s.rawString) := by
  simp [exec, execStart, hw, Laws.withRaw_of_presentable _ hp, State.delay, hlat]

/-- `EndsTransaction` reads neither `DONE` nor the window of the state before, which START sets first (R196). -/
theorem EndsTransaction.of_started {a : Option (List DecSymbol)} {s t : State}
    (h : EndsTransaction a { s with done := false, window := none } t) : EndsTransaction a s t := h

/-- With the unit a transaction is FRAME. -/
theorem endsTransaction_transaction_of_unit {s : State} (hu : s.params.hasResync = true) (raw : List Byte) :
    EndsTransaction (resync (hexdecs raw)) s (s.transaction raw) := by
  have hframe := endsTransaction_frame (s := { s with done := false, window := none }) rfl raw
  apply EndsTransaction.of_started
  simpa only [State.transaction, State.transact, hu, if_true] using hframe

/-- Without the unit it is DECODE on the decoded raw string. -/
theorem endsTransaction_transaction_of_no_unit {s : State} (hu : s.params.hasResync = false)
    (raw : List Byte) : EndsTransaction (some (hexdecs raw)) s (s.transaction raw) := by
  have hdecode :=
    endsTransaction_decodeAndFinish (s := { s with done := false, window := none }) rfl (hexdecs raw)
  apply EndsTransaction.of_started
  simpa only [State.transaction, State.transact, hu, Bool.false_eq_true, if_false] using hdecode

/-- Settles O43: the one step is the transaction, whose end depends on whether the unit is there. -/
theorem startPerformsOneTransaction : Obligations.StartPerformsOneTransaction := by
  intro s hw hp hlat
  refine ⟨s.transaction s.rawString, exec_start_of_no_delay hw hp hlat, fun hu => ?unit, fun hu => ?noUnit⟩
  case unit => exact endsTransaction_transaction_of_unit hu _
  case noUnit =>
    have hend := endsTransaction_transaction_of_no_unit hu s.rawString
    exact ⟨hend, hend.status_ne_resyncFailed⟩

end Sys2Proof.Machine
end

section
/-! The failures (60_exceptions.md rules R212 and R216). The cases of ResyncFailed are those in which RESYNC gives
nothing, each step of RESYNC contributing its own; after a failure the host reads the code, no register of the
record, and the adjusted string where there is one. -/

namespace Sys2Proof.Machine

/-! ### When RESYNC gives nothing (R123 to R125, R212) -/

/-- The four cases of R212 on the remainder: each is the step of RESYNC that its filler selects. -/
theorem resyncRemainder_eq_none_iff (rem : List DecSymbol) :
    resyncRemainder rem = none ↔
      (fill5 rem = false ∧ fillA rem = false) ∨
      (fill5 rem = true ∧ matchSync (strip5 rem) = false) ∨
      (fillA rem = true ∧ .other ∈ rem) ∨
      (fillA rem = true ∧ matchSync (strip5 (shl1 rem)) = false ∧ matchSync (strip5 (shr1 rem)) = false) := by
  cases h5 : fill5 rem with
  | true =>
    have hA : fillA rem = false := Bool.eq_false_iff.2 fun hA => not_fill5_and_fillA rem ⟨h5, hA⟩
    simp [resyncRemainder_of_fill5 h5, hA]
  | false =>
    cases hA : fillA rem with
    | false => simp [resyncRemainder_of_no_filler h5 hA]
    | true =>
      by_cases ho : .other ∈ rem
      · simp [resyncRemainder_of_fillA_of_other h5 hA ho, ho]
      · rw [resyncRemainder_of_fillA h5 hA ho]
        cases matchSync (strip5 (shl1 rem)) <;> simp [ho]

/-- A string that starts with the syncword is always returned (R121). -/
theorem resync_eq_none_iff (d : List DecSymbol) :
    resync d = none ↔ matchSync d = false ∧ resyncRemainder (d.drop 4) = none := by
  cases h : matchSync d with
  | true => simp [resync_of_matchSync h]
  | false => simp [resync_of_not_matchSync h]

/-! ### When a transaction ends in ResyncFailed -/

theorem decodeAndFinish_status_ne_resyncFailed (s : State) : s.decodeAndFinish.status ≠ .resyncFailed := by
  rcases Laws.decodeAndFinish_cases s with ⟨-, e⟩ | ⟨-, -, e⟩ | ⟨-, -, e⟩ <;> rw [e, finish_status] <;> decide

/-- FRAME shows ResyncFailed where RESYNC gives nothing, and the failures of DECODE are others. The state before is
arbitrary: a single FRAME does not look at a transaction in progress (log entry 13). -/
theorem frame_status_eq_resyncFailed_iff (s : State) (raw : List Byte) :
    (s.frame raw).status = .resyncFailed ↔ resync (hexdecs raw) = none := by
  cases h : resync (hexdecs raw) with
  | none => simp [State.frame, h, State.fail]
  | some a => simp [State.frame, h, decodeAndFinish_status_ne_resyncFailed]

theorem exec_frame {s : State} (hu : s.params.hasResync = true) (hp : s.presentable = true) :
    exec .frame s =
      .next ((s.frame s.rawString).returns (.outcome (s.frame s.rawString).status)) := by
  simp only [exec, execFrame, Laws.withResync_of_present _ hu, Laws.withRaw_of_presentable _ hp]

/-- Everything a START that completes can do (R196): the whole transaction with no delay, or the opening of one. -/
theorem exec_start_next {s t : State} (h : exec .start s = .next t) :
    s.window = none ∧ s.presentable = true ∧
      ((s.delay = 0 ∧ t = s.transaction s.rawString) ∨
        ∃ n, s.delay = n + 1 ∧ t = s.openWindow s.rawString n) := by
  simp only [exec, execStart] at h
  split at h
  case isTrue => cases h
  case isFalse hw =>
    obtain ⟨hp, h⟩ := Laws.withRaw_next h
    refine ⟨by simpa using hw, hp, ?_⟩
    cases hd : s.delay with
    | zero =>
      rw [hd] at h
      cases h
      exact .inl ⟨rfl, rfl⟩
    | succ n =>
      rw [hd] at h
      cases h
      exact .inr ⟨n, rfl, rfl⟩

/-- Settles O20: FRAME reports ResyncFailed exactly where RESYNC gives nothing, and the four steps of RESYNC name the
four cases; without the unit the finished START is DECODE on the raw string. -/
theorem resyncFailedExactlyInItsFourCases : Obligations.ResyncFailedExactlyInItsFourCases := by
  refine ⟨fun s hu hp => ?frame, fun s t hu hstart hdone => ?start⟩
  case frame =>
    refine ⟨_, exec_frame hu hp, ?_⟩
    intro d rem
    rw [returns_status, frame_status_eq_resyncFailed_iff, resync_eq_none_iff, resyncRemainder_eq_none_iff]
    simp only [ne_eq, ← Laws.matchSync_iff, ← Laws.fill5_iff, ← Laws.fillA_iff, Bool.not_eq_true, d, rem]
  case start =>
    obtain ⟨-, -, ⟨-, rfl⟩ | ⟨n, -, rfl⟩⟩ := exec_start_next hstart
    · exact (endsTransaction_transaction_of_no_unit hu _).status_ne_resyncFailed
    · cases hdone

/-! ### What the host reads after a failure (R28, R216) -/

section Reads

variable {t : State}

theorem hostRead_status_of_done (hd : t.done = true) : hostRead .status t = some t.status.code.toNat :=
  if_pos hd

/-- Without a record only the flags, the derived and hardwired outputs and `ADJLEN` have a value. -/
theorem hostRead_eq_none_of_no_record (hr : t.recValid = false) {o : Output} (hdone : o ≠ .done)
    (hstatus : o ≠ .status) (hvalid : o ≠ .recValid) (hsync : o ≠ .syncword) (hlen : o ≠ .adjLen) :
    hostRead o t = none := by
  cases o with
  | done => exact absurd rfl hdone
  | status => exact absurd rfl hstatus
  | recValid => exact absurd rfl hvalid
  | syncword => exact absurd rfl hsync
  | adjLen => exact absurd rfl hlen
  | _ => simp [hostRead, ifRecord, hr]

theorem recValid_of_failure (hf : t.status ≠ .ok) : t.recValid = false := by
  simp [State.recValid, hf]

/-- After ResyncFailed the adjusted string is not on the outputs. -/
theorem adjValid_of_resyncFailed (hf : t.status = .resyncFailed) : t.adjValid = false := by
  simp [State.adjValid, hf]

theorem adjValid_of_done (hd : t.done = true) (hf : t.status ≠ .resyncFailed) : t.adjValid = true := by
  simp [State.adjValid, hd, hf]

end Reads

/-- A transaction that does not end in ResyncFailed had an adjusted string, and leaves it in the buffer. -/
theorem EndsTransaction.adjusted_of_status_ne {x : Option (List DecSymbol)} {s t : State}
    (h : EndsTransaction x s t) (hf : t.status ≠ .resyncFailed) :
    ∃ a, x = some a ∧ t.adjusted = a ∧ t.mem.adjLen = a.length := by
  obtain ⟨-, -, -, -, -, -, -, -, -, hend⟩ := h
  cases x with
  | none => exact absurd hend hf
  | some a =>
    obtain ⟨hadj, hlen, -⟩ := hend
    exact ⟨a, rfl, hadj, hlen⟩

/-- With no delay a START that completes is one whole transaction, on what RESYNC gives or, without the unit, on
the decoded raw string. -/
theorem endsTransaction_of_exec_start {s t : State} (hlat : s.params.lat = some 0)
    (h : exec .start s = .next t) :
    ∃ x, EndsTransaction x s t ∧
      (s.params.hasResync = true → x = resync (hexdecs s.rawString)) ∧
      (s.params.hasResync = false → x = some (hexdecs s.rawString)) := by
  have hdelay : s.delay = 0 := by simp [State.delay, hlat]
  obtain ⟨-, -, ⟨-, rfl⟩ | ⟨n, hn, -⟩⟩ := exec_start_next h
  · cases hu : s.params.hasResync with
    | true => exact ⟨_, endsTransaction_transaction_of_unit hu _, fun _ => rfl, nofun⟩
    | false => exact ⟨_, endsTransaction_transaction_of_no_unit hu _, nofun, fun _ => rfl⟩
  · omega

/-- Settles O46: the end of the transaction fixes `DONE`, the ports and the adjusted string, and each output follows
from whether the record and the adjusted string are valid there. -/
theorem failureShowsItsCodeAndNoRecord : Obligations.FailureShowsItsCodeAndNoRecord := by
  intro s t hlat hstart hfail
  obtain ⟨x, hend, hunit, hnoUnit⟩ := endsTransaction_of_exec_start hlat hstart
  have hadjusted := hend.adjusted_of_status_ne
  obtain ⟨hdone, hwindow, -, -, -, -, -, hraw, hrawLen, -⟩ := hend
  refine ⟨?done, ?status, fun o ho => ?record, fun hf => ?resyncFailed, fun hf => ?adjusted,
    hwindow, hraw, hrawLen⟩
  case done => simp [hostRead, hdone]
  case status =>
    rw [hostRead_status_of_done hdone]
    cases t.status <;> rfl
  case record =>
    apply hostRead_eq_none_of_no_record (recValid_of_failure hfail) <;>
      (rintro rfl; exact absurd ho (by decide))
  case resyncFailed => simp [hostRead, hostReadAdj, adjValid_of_resyncFailed hf]
  case adjusted =>
    obtain ⟨a, rfl, hadj, hlen⟩ := hadjusted hf
    have hvalid : t.adjValid = true := adjValid_of_done hdone hf
    exact ⟨a, by simp [hostReadAdj, hvalid, hadj], by simp [hostRead, hvalid, hlen],
      fun hu => (hunit hu).symm, fun hu => (Option.some.inj (hnoUnit hu)).symm⟩

end Sys2Proof.Machine
end

section
/-! Reset and the hazards of a transaction (70_reset_and_hazards.md rules R241, R244 and R245). First what a step
does, once for each source of its request: the pins, RST before START, then a transaction in progress. Then what the
host reads while `DONE = 0`. -/

namespace Sys2Proof.Machine

/-! ### The pins (R221) -/

theorem getLsbD_pins_one (s : State) : s.pins.getLsbD 1 = s.rst := by
  rw [State.pins, BitVec.getLsbD_append]
  simp

theorem getLsbD_pins_zero (s : State) : s.pins.getLsbD 0 = s.start := by
  rw [State.pins, BitVec.getLsbD_append]
  simp

theorem extractLsb'_pins_zero (s : State) : s.pins.extractLsb' 0 1 = BitVec.ofBool s.start :=
  BitVec.extractLsb'_append_eq_right

/-- RST wins over START (R241). -/
theorem decodePins_pins (s : State) :
    decodePins s.pins =
      if s.rst then some (.reset (BitVec.ofBool s.start)) else if s.start then some .start else none := by
  rw [decodePins, getLsbD_pins_one, getLsbD_pins_zero, extractLsb'_pins_zero]

section Step

variable {s : State}

theorem decodePins_of_rst (hrst : s.rst = true) :
    decodePins s.pins = some (.reset (BitVec.ofBool s.start)) := by
  simp [decodePins_pins, hrst]

theorem decodePins_of_start (hrst : s.rst = false) (hstart : s.start = true) :
    decodePins s.pins = some .start := by
  simp [decodePins_pins, hrst, hstart]

theorem decodePins_of_released (hrst : s.rst = false) (hstart : s.start = false) :
    decodePins s.pins = none := by
  simp [decodePins_pins, hrst, hstart]

/-! ### What a step does -/

/-- The pins come before everything else, and are released. -/
theorem step_of_decodePins {i : Instr} (h : decodePins s.pins = some i) : step s = exec i s.releasePins := by
  simp only [step, State.request, h]

/-- With the pins released a transaction in progress comes before the bench. -/
theorem step_of_window (hrst : s.rst = false) (hstart : s.start = false) {w : Window} (hw : s.window = some w) :
    step s = tick w s := by
  simp only [step, State.request, decodePins_of_released hrst hstart, hw]

/-- RST resets the block, whatever START is. -/
theorem step_of_rst (hrst : s.rst = true) : step s = .next s.releasePins.resetBlock :=
  step_of_decodePins (decodePins_of_rst hrst)

end Step

/-! ### What the host reads while `DONE = 0` (R28) -/

section Reads

variable {t : State} (hd : t.done = false)
include hd

theorem recValid_of_not_done : t.recValid = false := by simp [State.recValid, hd]

theorem adjValid_of_not_done : t.adjValid = false := by simp [State.adjValid, hd]

theorem hostReadAdj_eq_none_of_not_done (i : Nat) : hostReadAdj i t = none := by
  simp [hostReadAdj, adjValid_of_not_done hd]

/-- `STATUS` and `ADJLEN` have no value before `DONE`, and there is no record. -/
theorem hostRead_eq_none_of_not_done {o : Output} (hdone : o ≠ .done) (hsync : o ≠ .syncword)
    (hvalid : o ≠ .recValid) : hostRead o t = none := by
  by_cases hstatus : o = .status
  · simp [hostRead, hstatus, hd]
  by_cases hlen : o = .adjLen
  · simp [hostRead, hlen, adjValid_of_not_done hd]
  exact hostRead_eq_none_of_no_record (recValid_of_not_done hd) hdone hstatus hvalid hsync hlen

end Reads

/-- Settles O48: the step is the reset of the block with its pins released, and the reads follow from `DONE = 0`. -/
theorem resetWinsAndAbandons : Obligations.ResetWinsAndAbandons := by
  intro s hrst
  have hd : s.releasePins.resetBlock.done = false := resetBlock_done _
  refine ⟨_, step_of_rst hrst, hd, resetBlock_status _, resetBlock_crc _, resetBlock_window _,
    fun o => hostRead_eq_none_of_not_done hd, ?done, ?recValid, hostReadAdj_eq_none_of_not_done hd,
    releasePins_rst s, releasePins_start s⟩
  case done => simp [hostRead]
  case recValid => simp [hostRead, recValid_of_not_done hd]

/-! ### The hazards (R244, R245) -/

theorem exec_start_of_window {s : State} {w : Window} (hw : s.window = some w) :
    exec .start s = .refused .startDuringTransaction :=
  if_pos (Option.isSome_of_eq_some hw)

/-- A transaction passes a step only while the port presents the string sampled at START. -/
theorem tick_of_input_changed {s : State} {w : Window} (h : s.presentable = false ∨ s.rawString ≠ w.sampled) :
    tick w s = .refused .inputChanged := by
  refine if_neg fun hsame => ?_
  obtain ⟨hp, hraw⟩ : s.presentable = true ∧ s.rawString = w.sampled := by simpa using hsame
  rcases h with hp' | hraw'
  · exact Bool.false_ne_true (hp'.symm.trans hp)
  · exact hraw' hraw

/-- Settles O49: START on the pins is refused by its own arm, and a changed string by the passing of the
transaction. -/
theorem hazardsOfATransactionAreRefused : Obligations.HazardsOfATransactionAreRefused := by
  refine ⟨fun s w hrst hstart hw => ?secondStart, fun s w hrst hstart hw hchanged => ?changedString⟩
  case secondStart =>
    rw [step_of_decodePins (decodePins_of_start hrst hstart)]
    exact exec_start_of_window ((releasePins_window s).trans hw)
  case changedString =>
    rw [step_of_window hrst hstart hw]
    exact tick_of_input_changed hchanged

end Sys2Proof.Machine
end

section
/-! The request format (30_encoding.md section 5, log entry 1). Each operand reader is said once, as an `↔` with the
operand bytes it reads, beside those of `Laws`; the two round trips then go row by row through these lemmas. -/

namespace Sys2Proof

open Laws

/-! ### Words of two, three and four bytes, low byte first -/

section Words

open BitVec

theorem bytesOfWord_two (b1 b0 : Byte) : bytesOfWord 2 (b1 ++ b0) = [b0, b1] := by
  have h0 : (b1 ++ b0).extractLsb' 0 8 = b0 := extractLsb'_append_eq_right
  have h1 : (b1 ++ b0).extractLsb' 8 8 = b1 := extractLsb'_append_eq_left
  exact congrArg₂ (fun x y => [x, y]) h0 h1

theorem bytesOfWord_three (b2 b1 b0 : Byte) : bytesOfWord 3 (b2 ++ b1 ++ b0) = [b0, b1, b2] := by
  have h0 : (b2 ++ b1 ++ b0).extractLsb' 0 8 = b0 := extractLsb'_append_eq_right
  have h1 : (b2 ++ b1 ++ b0).extractLsb' 8 8 = b1 :=
    (extractLsb'_append_eq_of_le le_rfl).trans extractLsb'_append_eq_right
  have h2 : (b2 ++ b1 ++ b0).extractLsb' 16 8 = b2 :=
    (extractLsb'_append_eq_of_le (by decide)).trans extractLsb'_append_eq_left
  calc bytesOfWord 3 (b2 ++ b1 ++ b0)
    _ = [(b2 ++ b1 ++ b0).extractLsb' 0 8, (b2 ++ b1 ++ b0).extractLsb' 8 8,
          (b2 ++ b1 ++ b0).extractLsb' 16 8] := rfl
    _ = [b0, b1, b2] := by rw [h0, h1, h2]

/-- `CLASSIFY`'s operand: the received checksum in the low two bytes, the computed one above it. -/
theorem bytesOfWord_four (a r : BitVec 16) : bytesOfWord 4 (a ++ r) = bytesOfWord 2 r ++ bytesOfWord 2 a := by
  have low : ∀ k, k + 8 ≤ 16 → (a ++ r).extractLsb' k 8 = r.extractLsb' k 8 :=
    fun _ hk => extractLsb'_append_eq_of_add_le hk
  have high : ∀ k, 16 ≤ k → (a ++ r).extractLsb' k 8 = a.extractLsb' (k - 16) 8 :=
    fun _ hk => extractLsb'_append_eq_of_le hk
  calc bytesOfWord 4 (a ++ r)
    _ = [(a ++ r).extractLsb' 0 8, (a ++ r).extractLsb' 8 8, (a ++ r).extractLsb' 16 8,
          (a ++ r).extractLsb' 24 8] := rfl
    _ = bytesOfWord 2 r ++ bytesOfWord 2 a := by
      rw [low 0 (by decide), low 8 (by decide), high 16 (by decide), high 24 (by decide)]
      rfl

theorem append_bytes_word16 (r : BitVec 16) : r.extractLsb' 8 8 ++ r.extractLsb' 0 8 = r :=
  (extractLsb'_append_extractLsb'_eq_extractLsb' rfl).trans extractLsb'_eq_self

theorem append_bytes_word24 (r : BitVec 24) :
    r.extractLsb' 16 8 ++ r.extractLsb' 8 8 ++ r.extractLsb' 0 8 = r := by
  have hhigh : r.extractLsb' 16 8 ++ r.extractLsb' 8 8 = r.extractLsb' 8 16 :=
    extractLsb'_append_extractLsb'_eq_extractLsb' rfl
  have hall : r.extractLsb' 8 16 ++ r.extractLsb' 0 8 = r :=
    (extractLsb'_append_extractLsb'_eq_extractLsb' rfl).trans extractLsb'_eq_self
  exact (congrArg (· ++ r.extractLsb' 0 8) hhigh).trans hall

end Words

/-! ### What each operand reader reads -/

theorem readWord16_ok_iff (f : BitVec 16 → Instr) (bs : List Byte) (i : Instr) :
    readWord16 f bs = .ok i ↔ ∃ r, i = f r ∧ bs = bytesOfWord 2 r := by
  constructor
  · intro h
    unfold readWord16 at h
    split at h
    next b0 b1 => cases h; exact ⟨_, rfl, (bytesOfWord_two b1 b0).symm⟩
    all_goals cases h
  · rintro ⟨r, rfl, rfl⟩
    exact congrArg (Except.ok ∘ f) (append_bytes_word16 r)

theorem readWord24_ok_iff (f : BitVec 24 → Instr) (bs : List Byte) (i : Instr) :
    readWord24 f bs = .ok i ↔ ∃ r, i = f r ∧ bs = bytesOfWord 3 r := by
  constructor
  · intro h
    unfold readWord24 at h
    split at h
    next b0 b1 b2 => cases h; exact ⟨_, rfl, (bytesOfWord_three b2 b1 b0).symm⟩
    all_goals cases h
  · rintro ⟨r, rfl, rfl⟩
    exact congrArg (Except.ok ∘ f) (append_bytes_word24 r)

theorem readClassify_ok_iff (bs : List Byte) (i : Instr) :
    readClassify bs = .ok i ↔ ∃ a r, i = .classify a r ∧ bs = bytesOfWord 4 (a ++ r) := by
  constructor
  · intro h
    unfold readClassify at h
    split at h
    next r0 r1 a0 a1 =>
      cases h
      exact ⟨_, _, rfl, by rw [bytesOfWord_four, bytesOfWord_two, bytesOfWord_two]; rfl⟩
    all_goals cases h
  · rintro ⟨a, r, rfl, rfl⟩
    rw [bytesOfWord_four]
    exact congrArg Except.ok (congrArg₂ Instr.classify (append_bytes_word16 a) (append_bytes_word16 r))

/-- Four values fit on the two pins. -/
theorem pinsByte_cases {b : Byte} (h : b.toNat < 4) : b = 0 ∨ b = 1 ∨ b = 2 ∨ b = 3 := by
  bv_omega

theorem readStart_ok_iff (bs : List Byte) (i : Instr) : readStart bs = .ok i ↔ i = .start ∧ bs = [0x01] := by
  constructor
  · intro h
    unfold readStart at h
    split at h
    case h_1 => cases h
    case h_3 => cases h
    case h_2 b =>
      split at h
      case isFalse => cases h
      case isTrue hb =>
        obtain rfl | rfl | rfl | rfl := pinsByte_cases hb <;> cases h
        exact ⟨rfl, rfl⟩
  · rintro ⟨rfl, rfl⟩
    rfl

theorem readReset_ok_iff (bs : List Byte) (i : Instr) :
    readReset bs = .ok i ↔ ∃ p : BitVec 1, i = .reset p ∧ bs = [(1#1 ++ p).setWidth 8] := by
  constructor
  · intro h
    unfold readReset at h
    split at h
    case h_1 => cases h
    case h_3 => cases h
    case h_2 b =>
      split at h
      case isFalse => cases h
      case isTrue hb =>
        obtain rfl | rfl | rfl | rfl := pinsByte_cases hb <;> cases h
        · exact ⟨0, rfl, rfl⟩
        · exact ⟨1, rfl, rfl⟩
  · rintro ⟨p, rfl, rfl⟩
    revert p
    decide

/-! ### From an operand to a request -/

theorem encode_eq_cons {i : Instr} {b : Byte} {ops : List Byte} (hb : b.toNat = i.row.toNat)
    (hops : i.operand = ops) : encode i = b :: ops := by
  rw [encode, hops, BitVec.eq_of_toNat_eq hb]

theorem encode_of_readNothing {i j : Instr} {b : Byte} {ops : List Byte} (h : readNothing j ops = .ok i)
    (hb : b.toNat = j.row.toNat) (hj : j.operand = []) (hw : j.wellFormed = true) :
    encode i = b :: ops ∧ i.wellFormed = true := by
  obtain ⟨rfl, rfl⟩ := (readNothing_ok_iff j ops i).1 h
  exact ⟨encode_eq_cons hb hj, hw⟩

theorem encode_of_readSymbols {f : List DecSymbol → Instr} {i : Instr} {b : Byte} {ops : List Byte}
    (h : readSymbols f ops = .ok i) (hb : ∀ x, b.toNat = (f x).row.toNat)
    (hf : ∀ x, (f x).operand = x.map byteOfSymbol) : encode i = b :: ops ∧ i.wellFormed = true := by
  obtain ⟨x, rfl, hw, rfl⟩ := (readSymbols_ok_iff f ops i).1 h
  exact ⟨encode_eq_cons (hb x) (hf x), hw⟩

theorem encode_of_readBits {w : Nat} {f : BitVec w → Instr} {i : Instr} {b : Byte} {ops : List Byte}
    (h : readBits w f ops = .ok i) (hw : w ≤ 8) (hb : ∀ v, b.toNat = (f v).row.toNat)
    (hf : ∀ v, (f v).operand = [v.setWidth 8]) (hwf : ∀ v, (f v).wellFormed = true) :
    encode i = b :: ops ∧ i.wellFormed = true := by
  obtain ⟨v, rfl, rfl⟩ := (readBits_ok_iff w hw f ops i).1 h
  exact ⟨encode_eq_cons (hb v) (hf v), hwf v⟩

/-! ### The round trips -/

/-- Settles O1: the row byte selects the operand reader of the operation, and the reader's `↔` takes the operand
back. -/
theorem decodeOfEncodeIsTheOperation : Obligations.DecodeOfEncodeIsTheOperation := by
  intro i hw
  cases i with
  | hexint x | matchsync x | fill5 x | filla x | strip5 x | shl1 x | shr1 x =>
    exact (readSymbols_ok_iff _ _ _).2 ⟨x, rfl, hw, rfl⟩
  | hexdec c | crcByte c =>
    exact (readBits_ok_iff 8 le_rfl _ _ _).2 ⟨c, rfl, congrArg (fun b => [b]) (BitVec.setWidth_eq c).symm⟩
  | crcBit d => exact (readBits_ok_iff 1 (by decide) _ _ _).2 ⟨d, rfl, rfl⟩
  | crcNib n => exact (readBits_ok_iff 4 (by decide) _ _ _).2 ⟨n, rfl, rfl⟩
  | scale16 r => exact (readWord16_ok_iff _ _ _).2 ⟨r, rfl, rfl⟩
  | scale24 r => exact (readWord24_ok_iff _ _ _).2 ⟨r, rfl, rfl⟩
  | classify a r => exact (readClassify_ok_iff _ _).2 ⟨a, r, rfl, rfl⟩
  | start => exact (readStart_ok_iff _ _).2 ⟨rfl, rfl⟩
  | reset p => exact (readReset_ok_iff _ _).2 ⟨p, rfl, rfl⟩
  | _ => exact (readNothing_ok_iff _ _ _).2 ⟨rfl, rfl⟩

/-- Settles O2: the split is over the row byte; each row's reader says which operation and which operand bytes it
can have read. -/
theorem encodeOfDecodeIsTheRequest : Obligations.EncodeOfDecodeIsTheRequest := by
  intro bs i h
  cases bs with
  | nil => cases h
  | cons b ops =>
    simp only [decode] at h
    split at h
    case h_1 hb | h_30 hb =>
      exact encode_of_readBits h le_rfl (fun _ => hb) (fun c => congrArg (fun b => [b]) (BitVec.setWidth_eq c).symm)
        (fun _ => rfl)
    case h_28 hb | h_29 hb =>
      exact encode_of_readBits h (by decide) (fun _ => hb) (fun _ => rfl) (fun _ => rfl)
    case h_3 hb | h_4 hb | h_5 hb | h_6 hb | h_7 hb | h_8 hb | h_9 hb =>
      exact encode_of_readSymbols h (fun _ => hb) (fun _ => rfl)
    case h_25 hb =>
      obtain ⟨r, rfl, rfl⟩ := (readWord24_ok_iff _ _ _).1 h
      exact ⟨encode_eq_cons hb rfl, rfl⟩
    case h_26 hb =>
      obtain ⟨r, rfl, rfl⟩ := (readWord16_ok_iff _ _ _).1 h
      exact ⟨encode_eq_cons hb rfl, rfl⟩
    case h_32 hb =>
      obtain ⟨a, r, rfl, rfl⟩ := (readClassify_ok_iff _ _).1 h
      exact ⟨encode_eq_cons hb rfl, rfl⟩
    case h_35 hb =>
      obtain ⟨rfl, rfl⟩ := (readStart_ok_iff _ _).1 h
      exact ⟨encode_eq_cons hb rfl, rfl⟩
    case h_36 hb =>
      obtain ⟨p, rfl, rfl⟩ := (readReset_ok_iff _ _).1 h
      exact ⟨encode_eq_cons hb rfl, rfl⟩
    case h_37 => cases h
    all_goals
      next hb => exact encode_of_readNothing h hb rfl rfl

/-- Settles O3: each written request is the encoding of its operation. -/
theorem writtenWordsDecode : Obligations.WrittenWordsDecode :=
  ⟨decodeOfEncodeIsTheOperation (.hexdec 0x45) rfl,
    decodeOfEncodeIsTheOperation (.scale24 1000) rfl,
    decodeOfEncodeIsTheOperation (.classify 0x3A9C 0x1D4E) rfl,
    decodeOfEncodeIsTheOperation (.matchsync [.hex 3#4, .hex 4#4, .hex 7#4, .hex 5#4]) rfl,
    decodeOfEncodeIsTheOperation .start rfl,
    decodeOfEncodeIsTheOperation (.reset 1) rfl⟩

end Sys2Proof
end

section
/-! What an operation and a step can do (10_state.md sections 4 and 6, rules R25 and R33). `Effect` says once, for
every operation, which next states it can answer; `step_next` says where a step takes its next state from. The
statements about flags and about the form of the buffers are read off these two. -/

namespace Sys2Proof.Machine

/-! ### The effect of an operation -/

/-- The operations of the CRC generator (R161 to R165). -/
def IsGeneratorOp (i : Instr) : Prop :=
  i = .crcInit ∨ (∃ d, i = .crcBit d) ∨ (∃ n, i = .crcNib n) ∨ (∃ b, i = .crcByte b) ∨ i = .crcSpan

/-- The next states an operation can answer, by what it writes (R33). -/
inductive Effect (s : State) : Instr → State → Prop where
  | returned (i : Instr) (r : OpResult) (d : Nat) : Effect s i { s with result := r, draws := d }
  | generated (i : Instr) (hi : IsGeneratorOp i) (c : BitVec 16) (d : Nat) :
      Effect s i { s with crc := c, result := .none, draws := d }
  | resynced (hp : s.presentable = true) (a : List DecSymbol) (ha : resync (hexdecs s.rawString) = some a) :
      Effect s .resync ((s.writeAdj a).returns (.adjusted (some a)))
  | resyncedNothing : Effect s .resync (s.unspecifyAdj.returns (.adjusted none))
  | decoded : Effect s .decode (s.writeRecord.returns (.outcome .ok))
  | decodeFailed (o : Status) : Effect s .decode (s.unspecifyRecord.returns (.outcome o))
  | framed (hp : s.presentable = true) (r : OpResult) : Effect s .frame ((s.frame s.rawString).returns r)
  | transacted (hp : s.presentable = true) : Effect s .start (s.transaction s.rawString)
  | opened (n : Nat) : Effect s .start (s.openWindow s.rawString n)
  | wasReset (p : BitVec 1) : Effect s (.reset p) s.resetBlock

section Exec

variable {s t : State}

theorem effect_of_select {lo n : Nat} (i : Instr) (h : select lo n s = .next t) : Effect s i t := by
  obtain ⟨v, d, e, -⟩ := Laws.select_next lo n s
  cases e.symm.trans h
  exact .returned ..

theorem effect_of_runShift {f : List DecSymbol → List DecSymbol} {x : List DecSymbol} (i : Instr)
    (h : runShift f x s = .next t) : Effect s i t := by
  obtain ⟨y, d, e, -⟩ := Laws.runShift_next f x s
  cases e.symm.trans h
  exact .returned ..

theorem effect_of_execHexdecs (h : execHexdecs s = .next t) : Effect s .hexdecs t := by
  unfold execHexdecs at h
  obtain ⟨-, h⟩ := Laws.withRaw_next h
  cases h
  exact .returned ..

theorem effect_of_execHexint {x : List DecSymbol} (h : execHexint x s = .next t) :
    Effect s (.hexint x) t := by
  unfold execHexint at h
  split at h
  · split at h <;> cases h <;> exact .returned ..
  · cases h

theorem effect_of_execSelSpan (h : execSelSpan s = .next t) : Effect s .selSpan t := by
  unfold execSelSpan at h
  split at h <;> cases h <;> exact .returned ..

theorem effect_of_execCrcSpan (h : execCrcSpan s = .next t) : Effect s .crcSpan t := by
  have hi : IsGeneratorOp .crcSpan := .inr (.inr (.inr (.inr rfl)))
  unfold execCrcSpan at h
  split at h <;> cases h <;> exact .generated _ hi ..

theorem effect_of_execResync (h : execResync s = .next t) : Effect s .resync t := by
  obtain ⟨-, h⟩ := Laws.withResync_next h
  obtain ⟨hp, h⟩ := Laws.withRaw_next h
  split at h
  next a ha => cases h; exact .resynced hp a ha
  next => cases h; exact .resyncedNothing

theorem effect_of_execDecode (h : execDecode s = .next t) : Effect s .decode t := by
  unfold execDecode at h
  split at h <;> cases h
  · exact .decoded
  · exact .decodeFailed _

theorem effect_of_execStart (h : execStart s = .next t) : Effect s .start t := by
  obtain ⟨-, hp, ⟨-, rfl⟩ | ⟨n, -, rfl⟩⟩ := exec_start_next h
  · exact .transacted hp
  · exact .opened n

/-- Every operation that completes has its effect. -/
theorem effect_of_exec {i : Instr} (h : exec i s = .next t) : Effect s i t := by
  cases i with
  | hexdec | selSyncword | scale24 | scale16 | classify => cases h; exact .returned ..
  | hexdecs => exact effect_of_execHexdecs h
  | hexint => exact effect_of_execHexint h
  | matchsync | fill5 | filla | strip5 =>
    obtain ⟨-, h⟩ := Laws.withResync_next h
    cases h
    exact .returned ..
  | shl1 | shr1 =>
    obtain ⟨-, h⟩ := Laws.withResync_next h
    split at h
    · exact effect_of_runShift _ h
    · cases h
  | selReceiverId | selSenderId | selU1 | selU2 | selU3 | selTotalAh | selU4 | selCurrentA | selBattery | selU5
    | selCrc | selU6 => exact effect_of_select _ h
  | selSpan => exact effect_of_execSelSpan h
  | crcInit => cases h; exact .generated _ (.inl rfl) ..
  | crcBit d => cases h; exact .generated _ (.inr (.inl ⟨d, rfl⟩)) ..
  | crcNib n => cases h; exact .generated _ (.inr (.inr (.inl ⟨n, rfl⟩))) ..
  | crcByte b => cases h; exact .generated _ (.inr (.inr (.inr (.inl ⟨b, rfl⟩)))) ..
  | crcSpan => exact effect_of_execCrcSpan h
  | resync => exact effect_of_execResync h
  | decode => exact effect_of_execDecode h
  | frame =>
    obtain ⟨-, h⟩ := Laws.withResync_next h
    obtain ⟨hp, h⟩ := Laws.withRaw_next h
    cases h
    exact .framed hp _
  | start => exact effect_of_execStart h
  | reset p => cases h; exact .wasReset p

end Exec

/-! ### What a step does, by the source of its request (R201, R221) -/

theorem decodePins_eq_none_iff (s : State) : decodePins s.pins = none ↔ s.rst = false ∧ s.start = false := by
  rw [decodePins_pins]
  cases s.rst <;> cases s.start <;> simp

section Step

variable {s t : State} (hrst : s.rst = false) (hstart : s.start = false) (hw : s.window = none)
include hrst hstart hw

theorem step_of_bench {i : Instr} (h : decode s.bench = .ok i) : step s = exec i s.clearBench := by
  cases hb : s.bench with
  | nil => rw [hb] at h; cases h
  | cons b bs =>
    rw [hb] at h
    simp only [step, State.request, decodePins_of_released hrst hstart, hw, hb, h]

theorem step_of_idle (h : s.bench = []) : step s = .next s := by
  simp only [step, State.request, decodePins_of_released hrst hstart, hw, h]

theorem step_of_no_request {r : Reject} (hb : s.bench ≠ []) (h : decode s.bench = .error r) :
    step s = .refused (.badRequest r) := by
  cases hbs : s.bench with
  | nil => exact absurd hbs hb
  | cons b bs =>
    rw [hbs] at h
    simp only [step, State.request, decodePins_of_released hrst hstart, hw, hbs, h]

end Step

/-- Settles O4: one lemma for each source of a request. -/
theorem stepRunsTheRequestedOperation : Obligations.StepRunsTheRequestedOperation :=
  ⟨fun _ _ => step_of_decodePins, fun _ _ hrst hstart => step_of_window hrst hstart,
    fun _ _ hrst hstart hw => step_of_bench hrst hstart hw, fun _ => step_of_idle,
    fun _ _ hrst hstart hw => step_of_no_request hrst hstart hw⟩

/-- Everything a step that completes can do. -/
theorem step_next {s t : State} (h : step s = .next t) :
    (∃ i, decodePins s.pins = some i ∧ exec i s.releasePins = .next t) ∨
    s.rst = false ∧ s.start = false ∧
      ((∃ w, s.window = some w ∧ tick w s = .next t) ∨
        s.window = none ∧
          ((∃ i, decode s.bench = .ok i ∧ exec i s.clearBench = .next t) ∨ s.bench = [] ∧ t = s)) := by
  cases hp : decodePins s.pins with
  | some i => exact .inl ⟨i, rfl, (step_of_decodePins hp).symm.trans h⟩
  | none =>
    obtain ⟨hrst, hstart⟩ := (decodePins_eq_none_iff s).1 hp
    refine .inr ⟨hrst, hstart, ?_⟩
    cases hw : s.window with
    | some w => exact .inl ⟨w, rfl, (step_of_window hrst hstart hw).symm.trans h⟩
    | none =>
      refine .inr ⟨rfl, ?_⟩
      by_cases hb : s.bench = []
      · rw [step_of_idle hrst hstart hw hb] at h
        cases h
        exact .inr ⟨hb, rfl⟩
      · cases hd : decode s.bench with
        | ok i => exact .inl ⟨i, rfl, (step_of_bench hrst hstart hw hd).symm.trans h⟩
        | error r =>
          rw [step_of_no_request hrst hstart hw hb hd] at h
          cases h

/-- A step of a transaction that neither ends it nor is refused: every output but `DONE` is unspecified again. -/
def State.wait (s : State) (w : Window) : State := { s.unspecifyOutputs with window := some w, result := .none }

/-- Everything a step inside a transaction can do (R196, R244). -/
theorem tick_next {w : Window} {s t : State} (h : tick w s = .next t) :
    s.presentable = true ∧ s.rawString = w.sampled ∧
      ((w.left = 0 ∧ t = s.transaction w.sampled) ∨ ∃ n, w.left = n + 1 ∧ t = s.wait { w with left := n }) := by
  unfold tick at h
  split at h
  case isFalse => cases h
  case isTrue hsame =>
    obtain ⟨hp, hraw⟩ : s.presentable = true ∧ s.rawString = w.sampled := by simpa using hsame
    refine ⟨hp, hraw, ?_⟩
    split at h
    next hleft => cases h; exact .inl ⟨hleft, rfl⟩
    next n hleft => cases h; exact .inr ⟨n, hleft, rfl⟩

end Sys2Proof.Machine
end

section
/-! What no operation and no step writes: the parameters, the string on the port, the pins and the bench (R7, R21),
and for each operation the flags and registers it leaves (R25, R33). -/

namespace Sys2Proof.Machine

/-- The two states have the same parameters, string on the port, pins and bench. -/
def SamePort (s t : State) : Prop :=
  t.params = s.params ∧ t.mem.raw = s.mem.raw ∧ t.mem.rawLen = s.mem.rawLen ∧
    t.rst = s.rst ∧ t.start = s.start ∧ t.bench = s.bench

theorem samePort_decodeAndFinish (s : State) : SamePort s s.decodeAndFinish := by
  rcases Laws.decodeAndFinish_cases s with ⟨-, e⟩ | ⟨-, -, e⟩ | ⟨-, -, e⟩ <;> rw [e] <;>
    exact ⟨rfl, rfl, rfl, rfl, rfl, rfl⟩

/-- FRAME leaves the port alone, also beside a transaction in progress, at which it does not look (log entry 13). -/
theorem samePort_frame (s : State) (raw : List Byte) : SamePort s (s.frame raw) := by
  unfold State.frame
  split
  · exact ⟨rfl, rfl, rfl, rfl, rfl, rfl⟩
  · exact samePort_decodeAndFinish _

/-- A whole transaction, with the unit or without it. -/
theorem endsTransaction_transaction (s : State) (raw : List Byte) :
    ∃ x, EndsTransaction x s (s.transaction raw) ∧
      (s.params.hasResync = true → x = resync (hexdecs raw)) ∧
      (s.params.hasResync = false → x = some (hexdecs raw)) := by
  cases hu : s.params.hasResync with
  | true => exact ⟨_, endsTransaction_transaction_of_unit hu raw, fun _ => rfl, nofun⟩
  | false => exact ⟨_, endsTransaction_transaction_of_no_unit hu raw, nofun, fun _ => rfl⟩

theorem EndsTransaction.samePort {x : Option (List DecSymbol)} {s t : State} (h : EndsTransaction x s t) :
    SamePort s t := by
  obtain ⟨-, -, -, hparams, hrst, hstart, hbench, hraw, hrawLen, -⟩ := h
  exact ⟨hparams, hraw, hrawLen, hrst, hstart, hbench⟩

theorem samePort_transaction (s : State) (raw : List Byte) : SamePort s (s.transaction raw) := by
  obtain ⟨x, hend, -⟩ := endsTransaction_transaction s raw
  exact hend.samePort

theorem transaction_done_window (s : State) (raw : List Byte) :
    (s.transaction raw).done = true ∧ (s.transaction raw).window = none := by
  obtain ⟨x, ⟨hdone, hwindow, -⟩, -⟩ := endsTransaction_transaction s raw
  exact ⟨hdone, hwindow⟩

theorem Effect.samePort {i : Instr} {s t : State} (h : Effect s i t) : SamePort s t := by
  cases h with
  | framed _ r => exact samePort_frame s s.rawString
  | transacted => exact samePort_transaction s s.rawString
  | _ => exact ⟨rfl, rfl, rfl, rfl, rfl, rfl⟩

/-- A step inside a transaction keeps what no operation writes. -/
theorem samePort_of_tick {w : Window} {s t : State} (h : tick w s = .next t) : SamePort s t := by
  obtain ⟨-, -, ⟨-, rfl⟩ | ⟨n, -, rfl⟩⟩ := tick_next h
  · exact samePort_transaction s _
  · exact ⟨rfl, rfl, rfl, rfl, rfl, rfl⟩

/-- The operations but START, DECODE, FRAME, RESYNC and reset write at most `CRC`. -/
theorem Effect.sameBlock {i : Instr} {s t : State} (h : Effect s i t) (hstart : i ≠ .start)
    (hframe : i ≠ .frame) (hreset : ∀ p, i ≠ .reset p) (hdecode : i ≠ .decode) (hresync : i ≠ .resync) :
    SameBlock { s with crc := t.crc } t := by
  cases h with
  | returned | generated => exact ⟨rfl, rfl, rfl, rfl, rfl, rfl, rfl, rfl, rfl, rfl, rfl⟩
  | resynced | resyncedNothing => exact absurd rfl hresync
  | decoded | decodeFailed => exact absurd rfl hdecode
  | framed => exact absurd rfl hframe
  | transacted | opened => exact absurd rfl hstart
  | wasReset p => exact absurd rfl (hreset p)

/-- The operations but START, FRAME and reset leave `DONE` and `STATUS`; those that are not DECODE either leave
`CRC_RESULT` and the record, and `CRC` unless they belong to the generator. -/
theorem Effect.keeps_flags {i : Instr} {s t : State} (h : Effect s i t) (hstart : i ≠ .start)
    (hframe : i ≠ .frame) (hreset : ∀ p, i ≠ .reset p) :
    t.done = s.done ∧ t.status = s.status ∧
      (i ≠ .decode → t.crcResult = s.crcResult ∧ t.record = s.record ∧ (¬ IsGeneratorOp i → t.crc = s.crc)) := by
  cases h with
  | returned | resynced | resyncedNothing => exact ⟨rfl, rfl, fun _ => ⟨rfl, rfl, fun _ => rfl⟩⟩
  | generated _ hi => exact ⟨rfl, rfl, fun _ => ⟨rfl, rfl, fun hn => absurd hi hn⟩⟩
  | decoded | decodeFailed => exact ⟨rfl, rfl, fun hd => absurd rfl hd⟩
  | framed => exact absurd rfl hframe
  | transacted | opened => exact absurd rfl hstart
  | wasReset p => exact absurd rfl (hreset p)

/-- Settles O56: an operation by its effect, a step inside a transaction by its two ends, and a step by the source
of its request. -/
theorem onlyTheNamedOperationsWriteFlags : Obligations.OnlyTheNamedOperationsWriteFlags := by
  refine ⟨fun i s t h => ?operation, fun w s t h => ?inside, fun s t h => ?step⟩
  case operation =>
    have heffect := effect_of_exec h
    obtain ⟨hparams, hraw, hrawLen, hrst, hstart, hbench⟩ := heffect.samePort
    refine ⟨hparams, hraw, hrawLen, hrst, hstart, hbench, fun h1 h2 h3 => ?_⟩
    obtain ⟨hdone, hstatus, hrecord⟩ := heffect.keeps_flags h1 h2 h3
    refine ⟨hdone, hstatus, fun h4 => ?_⟩
    obtain ⟨hclass, hrec, hcrc⟩ := hrecord h4
    refine ⟨hclass, hrec, fun g1 g2 g3 g4 g5 => hcrc ?_, heffect.sameBlock h1 h2 h3 h4⟩
    rintro (e | ⟨d, e⟩ | ⟨n, e⟩ | ⟨b, e⟩ | e)
    exacts [g1 e, g2 d e, g3 n e, g4 b e, g5 e]
  case inside =>
    obtain ⟨hparams, hraw, hrawLen, hrst, hstart, hbench⟩ := samePort_of_tick h
    refine ⟨hparams, hraw, hrawLen, hrst, hstart, hbench, ?_⟩
    obtain ⟨-, -, ⟨hleft, rfl⟩ | ⟨n, hleft, rfl⟩⟩ := tick_next h
    · exact ⟨fun _ => transaction_done_window s _, fun m hm => by omega⟩
    · refine ⟨fun h0 => by omega, fun m hm => ?_⟩
      obtain rfl : n = m := by omega
      exact ⟨rfl, rfl⟩
  case step =>
    obtain ⟨i, hpins, hexec⟩ | ⟨hrst, hstart, ⟨w, hw, htick⟩ | ⟨hw, ⟨i, -, hexec⟩ | ⟨hb, rfl⟩⟩⟩ := step_next h
    · obtain ⟨hparams, hraw, hrawLen, hr, hs, hbench⟩ := (effect_of_exec hexec).samePort
      have hasked : s.rst = false → s.start ≠ false := fun hrst hstart => by
        rw [(decodePins_eq_none_iff s).2 ⟨hrst, hstart⟩] at hpins
        cases hpins
      have hif : (s.rst || s.start || s.window.isSome) = true := by
        cases hrst : s.rst <;> simp [hasked, hrst]
      exact ⟨hparams, hraw, hrawLen, hr, hs, hbench.trans (if_pos hif).symm⟩
    · obtain ⟨hparams, hraw, hrawLen, hr, hs, hbench⟩ := samePort_of_tick htick
      exact ⟨hparams, hraw, hrawLen, hr.trans hrst, hs.trans hstart, by simpa [hw] using hbench⟩
    · obtain ⟨hparams, hraw, hrawLen, hr, hs, hbench⟩ := (effect_of_exec hexec).samePort
      exact ⟨hparams, hraw, hrawLen, hr.trans hrst, hs.trans hstart, by simpa [hrst, hstart, hw] using hbench⟩
    · exact ⟨rfl, rfl, rfl, hrst, hstart, by simp [hb]⟩

end Sys2Proof.Machine
end

section
/-! The form of the buffers (R21, R23): RESYNC returns no more symbols than the string on the port has, and that
string is at most `LMAX` long; every other write of `ADJ` fills the buffer. -/

namespace Sys2Proof.Machine

theorem memWf_fail {s : State} (hs : s.memWf = true) (f : Failure) : (s.fail f).memWf = true := by
  cases f with
  | resyncFailed => exact Laws.memWf_unspecifyAdj (s := s.unspecifyRecord) hs
  | tooShort | badHex => exact hs

/-- What RESYNC returns on a presentable port fits the buffer. -/
theorem length_le_lmax_of_resync {raw : List Byte} {a : List DecSymbol} {n : Nat} (hraw : raw.length ≤ n)
    (ha : resync (hexdecs raw) = some a) : a.length ≤ n :=
  (Laws.resync_length_le _ _ ha).trans ((Laws.hexdecs_length raw).trans_le hraw)

theorem memWf_frame {s : State} {raw : List Byte} (hs : s.memWf = true) (hraw : raw.length ≤ s.params.lmax) :
    (s.frame raw).memWf = true := by
  unfold State.frame
  split
  next => exact memWf_fail hs _
  next a ha => exact Laws.memWf_decodeAndFinish (Laws.memWf_writeAdj hs a (length_le_lmax_of_resync hraw ha))

theorem memWf_transaction {s : State} {raw : List Byte} (hs : s.memWf = true)
    (hraw : raw.length ≤ s.params.lmax) : (s.transaction raw).memWf = true := by
  have hstarted : ({ s with done := false, window := none } : State).memWf = true := hs
  show (State.transact _ raw).memWf = true
  unfold State.transact
  split
  · exact memWf_frame hstarted hraw
  · exact Laws.memWf_decodeAndFinish
      (Laws.memWf_writeAdj hstarted _ ((Laws.hexdecs_length raw).trans_le hraw))

theorem memWf_unspecifyOutputs {s : State} (hs : s.memWf = true) : s.unspecifyOutputs.memWf = true :=
  Laws.memWf_unspecifyAdj (s := s.unspecifyRecord) hs

theorem Effect.memWf {i : Instr} {s t : State} (h : Effect s i t) (hs : s.memWf = true) : t.memWf = true := by
  cases h with
  | returned | generated | decoded | decodeFailed => exact hs
  | resynced hp a ha =>
    exact Laws.memWf_writeAdj hs a (length_le_lmax_of_resync (Laws.rawString_length_le s hp) ha)
  | resyncedNothing => exact Laws.memWf_unspecifyAdj hs
  | framed hp r => exact memWf_frame hs (Laws.rawString_length_le s hp)
  | transacted hp => exact memWf_transaction hs (Laws.rawString_length_le s hp)
  | opened n => exact memWf_unspecifyOutputs hs
  | wasReset p => exact Laws.memWf_unspecifyAdj (s := s.unspecifyRecord) hs

theorem memWf_of_tick {w : Window} {s t : State} (hs : s.memWf = true) (h : tick w s = .next t) :
    t.memWf = true := by
  obtain ⟨hp, hraw, ⟨-, rfl⟩ | ⟨n, -, rfl⟩⟩ := tick_next h
  · exact memWf_transaction hs (hraw ▸ Laws.rawString_length_le s hp)
  · exact memWf_unspecifyOutputs hs

theorem memWf_of_step {s t : State} (hs : s.memWf = true) (h : step s = .next t) : t.memWf = true := by
  obtain ⟨i, -, hexec⟩ | ⟨-, -, ⟨w, -, htick⟩ | ⟨-, ⟨i, -, hexec⟩ | ⟨-, rfl⟩⟩⟩ := step_next h
  · exact (effect_of_exec hexec).memWf (s := s.releasePins) hs
  · exact memWf_of_tick hs htick
  · exact (effect_of_exec hexec).memWf (s := s.clearBench) hs
  · exact hs

/-- Settles O58: an operation by its effect, a step by the source of its request. -/
theorem buffersKeepTheirForm : Obligations.BuffersKeepTheirForm :=
  ⟨fun _ _ _ hs h => (effect_of_exec h).memWf hs, fun _ _ => memWf_of_step⟩

end Sys2Proof.Machine
end

section
/-! The host invariant (10_state.md section 4, 41_resync.md section 1, 46_decode.md section 3). Two kinds of states
have it: a block with `DONE = 0`, on which nothing of a record can be read, and the end of a transaction. A step
from a state with an empty bench gives one of the two, or changes nothing. -/

namespace Sys2Proof.Machine

/-- The contract of RESYNC: every string it returns starts with the syncword (R110). -/
theorem matchSync_of_resync {d a : List DecSymbol} (h : resync d = some a) : matchSync a = true := by
  cases hd : matchSync d with
  | true =>
    cases (resync_of_matchSync hd).symm.trans h
    exact hd
  | false =>
    rw [resync_of_not_matchSync hd] at h
    cases h5 : fill5 (d.drop 4) with
    | true =>
      rw [resyncRemainder_of_fill5 h5, Option.ite_none_right_eq_some] at h
      obtain ⟨hm, ⟨⟩⟩ := h
      exact hm
    | false =>
      cases hA : fillA (d.drop 4) with
      | false =>
        rw [resyncRemainder_of_no_filler h5 hA] at h
        cases h
      | true =>
        by_cases ho : .other ∈ d.drop 4
        · rw [resyncRemainder_of_fillA_of_other h5 hA ho] at h
          cases h
        · rw [resyncRemainder_of_fillA h5 hA ho] at h
          split at h
          next hm => cases h; exact hm
          next =>
            rw [Option.ite_none_right_eq_some] at h
            obtain ⟨hm, ⟨⟩⟩ := h
            exact hm

/-! ### The two kinds of states -/

/-- While `DONE = 0` nothing of a record can be read, so only the bench and the buffers count. -/
theorem hostInv_of_not_done {s : State} (hbench : s.bench = []) (hbuffers : s.memWf = true)
    (hdone : s.done = false) : s.HostInv where
  bench_empty := hbench
  buffers := hbuffers
  window_done _ := hdone
  record h := by simp [recValid_of_not_done hdone] at h
  anchored _ h := by simp [adjValid_of_not_done hdone] at h
  no_resync _ h := by simp [hdone] at h

/-- `REC_VALID` at the end of a transaction means that DECODE found no failure. -/
theorem EndsTransaction.recordAgrees {x : Option (List DecSymbol)} {s t : State} (h : EndsTransaction x s t)
    (hok : t.status = .ok) : t.RecordAgrees := by
  obtain ⟨-, -, -, -, -, -, -, -, -, hend⟩ := h
  cases x with
  | none => cases hok.symm.trans hend
  | some a =>
    obtain ⟨-, -, hshort, hbad, hrecord⟩ := hend
    by_cases hlen : a.length < 41
    · cases hok.symm.trans (hshort hlen)
    · by_cases ho : .other ∈ a.take 41
      · cases hok.symm.trans (hbad (by omega) ho)
      · exact (hrecord (by omega) ho).2

theorem recValid_iff (s : State) : s.recValid = true ↔ s.done = true ∧ s.status = .ok := by
  simp [State.recValid]

theorem adjValid_iff (s : State) : s.adjValid = true ↔ s.done = true ∧ s.status ≠ .resyncFailed := by
  simp [State.adjValid]

/-- The end of a transaction on the string RESYNC gave, or on the raw string without the unit. -/
theorem EndsTransaction.hostInv {x : Option (List DecSymbol)} {s t : State} {raw : List Byte}
    (h : EndsTransaction x s t) (hbench : s.bench = []) (hbuffers : t.memWf = true)
    (hunit : s.params.hasResync = true → x = resync (hexdecs raw))
    (hnoUnit : s.params.hasResync = false → x = some (hexdecs raw)) : t.HostInv := by
  obtain ⟨-, hwindow, -, hparams, -, -, hb, -⟩ := id h
  refine ⟨hb.trans hbench, hbuffers, ?window, ?record, ?anchored, ?noResync⟩
  case window => simp [hwindow]
  case record => exact fun hr => h.recordAgrees ((recValid_iff t).1 hr).2
  case anchored =>
    intro hu hvalid
    obtain ⟨a, rfl, hadj, -⟩ := h.adjusted_of_status_ne ((adjValid_iff t).1 hvalid).2
    rw [hadj]
    exact matchSync_of_resync (hunit (hparams ▸ hu)).symm
  case noResync =>
    intro hu _
    obtain rfl := hnoUnit (hparams ▸ hu)
    exact h.status_ne_resyncFailed

theorem hostInv_transaction {s : State} {raw : List Byte} (hbench : s.bench = []) (hbuffers : s.memWf = true)
    (hraw : raw.length ≤ s.params.lmax) : (s.transaction raw).HostInv := by
  obtain ⟨x, hend, hunit, hnoUnit⟩ := endsTransaction_transaction s raw
  exact hend.hostInv hbench (memWf_transaction hbuffers hraw) hunit hnoUnit

/-! ### The steps (R196, R220, R241) -/

/-- The host can ask for RESET and START only (R201). -/
theorem hostInv_of_pins {s t : State} {i : Instr} (h : s.HostInv) (hpins : decodePins s.pins = some i)
    (hexec : exec i s.releasePins = .next t) : t.HostInv := by
  have hbench : s.releasePins.bench = [] := h.bench_empty
  have hbuffers : s.releasePins.memWf = true := h.buffers
  have heffect := effect_of_exec hexec
  have hkeeps := heffect.memWf hbuffers
  rw [decodePins_pins] at hpins
  cases hrst : s.rst with
  | true =>
    simp only [hrst, if_true] at hpins
    cases hpins
    cases hexec
    exact hostInv_of_not_done hbench hkeeps rfl
  | false =>
    simp only [hrst, Bool.false_eq_true, if_false, Option.ite_none_right_eq_some] at hpins
    obtain ⟨-, ⟨⟩⟩ := hpins
    obtain ⟨-, hp, ⟨-, rfl⟩ | ⟨n, -, rfl⟩⟩ := exec_start_next hexec
    · exact hostInv_transaction hbench hbuffers (Laws.rawString_length_le _ hp)
    · exact hostInv_of_not_done hbench hkeeps rfl

theorem hostInv_of_tick {w : Window} {s t : State} (h : s.HostInv) (hw : s.window = some w)
    (htick : tick w s = .next t) : t.HostInv := by
  have hdone : s.done = false := h.window_done (Option.isSome_of_eq_some hw)
  have hkeeps := memWf_of_tick h.buffers htick
  obtain ⟨hp, hraw, ⟨-, rfl⟩ | ⟨n, -, rfl⟩⟩ := tick_next htick
  · exact hostInv_transaction h.bench_empty h.buffers (hraw ▸ Laws.rawString_length_le s hp)
  · exact hostInv_of_not_done h.bench_empty hkeeps hdone

/-- Settles O59: the source of the request is the pins or the transaction in progress, since the bench is empty;
otherwise nothing changes. -/
theorem stepKeepsTheHostInvariant : Obligations.StepKeepsTheHostInvariant := by
  intro s t h hstep
  obtain ⟨i, hpins, hexec⟩ | ⟨-, -, ⟨w, hw, htick⟩ | ⟨-, ⟨i, hdecode, -⟩ | ⟨-, rfl⟩⟩⟩ := step_next hstep
  · exact hostInv_of_pins h hpins hexec
  · exact hostInv_of_tick h hw htick
  · rw [h.bench_empty] at hdecode
    cases hdecode
  · exact h

/-! ### Reset and what the host does (R21, R240) -/

theorem present_presentable {s : State} {raw : List Byte} (hraw : raw.length ≤ s.params.lmax) :
    (s.present raw).presentable = true := by
  refine (Laws.presentable_iff _).2 ⟨?_, hraw⟩
  simp [hraw]

/-- A string on the port changes neither what the host reads nor the adjusted buffer. -/
theorem hostInv_present {s : State} {raw : List Byte} (h : s.HostInv) (hraw : raw.length ≤ s.params.lmax) :
    (s.present raw).HostInv where
  bench_empty := h.bench_empty
  buffers := Laws.memWf_present h.buffers raw hraw
  window_done := h.window_done
  record := h.record
  anchored := h.anchored
  no_resync := h.no_resync

/-- The pins are no part of the invariant. -/
theorem hostInv_of_pins_changed {s : State} (h : s.HostInv) (rst start : Bool) :
    ({ s with rst := rst, start := start } : State).HostInv where
  bench_empty := h.bench_empty
  buffers := h.buffers
  window_done := h.window_done
  record := h.record
  anchored := h.anchored
  no_resync := h.no_resync

/-- Settles O60: the reset state shows `DONE = 0`; what the host drives is no part of what it reads. -/
theorem hostInvariantAtResetAndUnderTheHost : Obligations.HostInvariantAtResetAndUnderTheHost :=
  ⟨hostInv_of_not_done rfl Laws.memWf_reset rfl, fun s raw h hraw =>
    ⟨hostInv_present h hraw, Laws.present_rawString s raw, present_presentable hraw,
      hostInv_of_pins_changed h s.rst true, hostInv_of_pins_changed h true s.start⟩⟩

/-- Settles O47: the fields of the block after reset, one by one. -/
theorem resetPutsTheBlockInItsResetState : Obligations.ResetPutsTheBlockInItsResetState := by
  refine ⟨fun p s => ⟨s.resetBlock, rfl, ?block⟩, rfl, rfl, rfl, rfl⟩
  case block =>
    exact ⟨resetBlock_done s, resetBlock_status s, resetBlock_crc s, rfl, resetBlock_window s,
      resetBlock_params s, rfl, rfl, resetBlock_rst s, resetBlock_start s, resetBlock_bench s⟩

end Sys2Proof.Machine
end

section
/-! RESYNC on strings of a known shape (41_resync.md sections 3 and 4, R127 to R129). A hexadecimal sequence is fixed
by its length and its value, so a shift of a string is found by arithmetic on the values, and the leading fives have
a known value. -/

namespace Sys2Proof.Machine

open DecSymbol (hex)

/-! ### Leading fives and anchored strings -/

/-- `STRIP5` takes a run of fives off the front. -/
theorem exists_replicate_append_strip5 (x : List DecSymbol) :
    ∃ k, x = List.replicate k (hex 5#4) ++ strip5 x := by
  induction x with
  | nil => exact ⟨0, rfl⟩
  | cons y ys ih =>
    by_cases hy : y.isNib 5#4 = true
    · obtain ⟨k, hk⟩ := ih
      refine ⟨k + 1, ?_⟩
      rw [strip5, if_pos hy, List.replicate_succ, List.cons_append, ← hk, (Laws.isNib_iff y _).1 hy]
    · exact ⟨0, by rw [strip5, if_neg hy]; rfl⟩

/-- A symbol that is no five ends the run. -/
theorem strip5_replicate_cons {n : Nib} (hn : n ≠ 5#4) (k : Nat) (x : List DecSymbol) :
    strip5 (List.replicate k (hex 5#4) ++ hex n :: x) = hex n :: x := by
  rw [Laws.strip5_replicate, strip5, if_neg (by simpa [DecSymbol.isNib] using hn)]

theorem matchSync_iff_exists (x : List DecSymbol) :
    matchSync x = true ↔ ∃ rest, x = hex 3#4 :: hex 4#4 :: hex 7#4 :: hex 5#4 :: rest := by
  rw [Laws.matchSync_iff]
  constructor
  · intro h
    exact ⟨x.drop 4, by simpa [h] using (List.take_append_drop 4 x).symm⟩
  · rintro ⟨rest, rfl⟩
    rfl

/-! ### Sequences by their value -/

/-- Two hexadecimal sequences of one length and one value are equal. -/
theorem eq_of_hexNat {x y : List DecSymbol} (hx : .other ∉ x) (hy : .other ∉ y)
    (hlen : x.length = y.length) (hval : hexNat x = hexNat y) : x = y := by
  rw [Laws.eq_nibs_of_hexNat x hx y.length (vec y) hlen (hval.trans (Laws.vec_toNat y).symm), Laws.nibs_vec y hy]

theorem other_notMem_shl1 (x : List DecSymbol) : .other ∉ shl1 x := Laws.other_notMem_nibs _ _

theorem other_notMem_shr1 (x : List DecSymbol) : .other ∉ shr1 x := Laws.other_notMem_nibs _ _

/-- The value of `k` fives: a third of `16 ^ k`, rounded down. -/
theorem hexNat_replicate_five (k : Nat) :
    3 * hexNat (List.replicate k (hex 5#4)) + 1 = 16 ^ k := by
  induction k with
  | zero => rfl
  | succ k ih =>
    rw [List.replicate_succ', Laws.hexNat_append, pow_succ, ← ih]
    simp [hexNat, DecSymbol.nib]
    omega

/-- Behind a first bit 1, a left shift that starts with `j` fives and a 3 is a right shift that starts with `j`
fives and a 4. With `M = 16 ^ m` for the `m` symbols behind, `r` their value, and `P` the value of the fives times
`M`: the left shift has the value `16P + 3M + r`, the sequence itself half of `64P + 19M + r`, and the right shift
half of that, `16P + 4M + (3M + r)/4`. -/
theorem shr1_eq_of_shl1_eq {x rest : List DecSymbol} {j : Nat} (htop : 16 ^ x.length ≤ 2 * hexNat x)
    (h : shl1 x = List.replicate j (hex 5#4) ++ hex 3#4 :: rest) :
    ∃ z, shr1 x = List.replicate j (hex 5#4) ++ hex 4#4 :: z := by
  have hlen : x.length = j + (rest.length + 1) := by
    simpa [Laws.shl1_length] using congrArg List.length h
  have hleft : 2 * hexNat x % 16 ^ x.length =
      hexNat (List.replicate j (hex 5#4)) * 16 ^ (rest.length + 1) + (3 * 16 ^ rest.length + hexNat rest) := by
    rw [← Laws.hexNat_shl1, h, Laws.hexNat_append, Laws.hexNat_cons]
    rfl
  have hfives := hexNat_replicate_five j
  have hx := Laws.hexNat_lt x
  have hr := Laws.hexNat_lt rest
  have hwhole : 16 ^ x.length =
      48 * (hexNat (List.replicate j (hex 5#4)) * 16 ^ rest.length) + 16 * 16 ^ rest.length := by
    rw [hlen, pow_add, ← hfives, pow_succ]
    ring
  have hshift : hexNat (List.replicate j (hex 5#4)) * 16 ^ (rest.length + 1) =
      16 * (hexNat (List.replicate j (hex 5#4)) * 16 ^ rest.length) := by
    rw [pow_succ]
    ring
  have hmod : 2 * hexNat x % 16 ^ x.length = 2 * hexNat x - 16 ^ x.length := by
    rw [Nat.mod_eq_sub_mod htop, Nat.mod_eq_of_lt (by omega)]
  have hz : (3 * 16 ^ rest.length + hexNat rest) / 4 < 16 ^ rest.length := by omega
  refine ⟨nibs rest.length (BitVec.ofNat _ ((3 * 16 ^ rest.length + hexNat rest) / 4)), ?_⟩
  apply eq_of_hexNat (other_notMem_shr1 x)
  · simp [Laws.other_notMem_nibs]
  · simp [Laws.shr1_length, Laws.nibs_length, hlen]
  · rw [Laws.hexNat_shr1, Laws.hexNat_append, Laws.hexNat_cons, List.length_cons, Laws.nibs_length, Laws.hexNat_nibs,
      BitVec.toNat_ofNat, Laws.two_pow_nibbles, Nat.mod_eq_of_lt hz, hshift]
    simp only [DecSymbol.nib, BitVec.reduceToNat]
    omega

/-- A first symbol 10 has its top bit set. -/
theorem pow_le_two_mul_hexNat_of_fillA {x : List DecSymbol} (hA : fillA x = true) :
    16 ^ x.length ≤ 2 * hexNat x := by
  obtain ⟨y, rfl⟩ : ∃ y, x = hex 10#4 :: y := by
    have h := (Laws.fillA_iff x).1 hA
    cases x with
    | nil => cases h
    | cons a y => exact ⟨y, congrArg (· :: y) (List.cons.inj h).1⟩
  rw [Laws.hexNat_cons, List.length_cons, pow_succ]
  simp only [DecSymbol.nib, BitVec.reduceToNat]
  omega

/-- Settles O16: where the left correction exposes a 3 behind its fives, the right one has a 4 behind as many. -/
theorem atMostOneShiftCorrectionSucceeds : Obligations.AtMostOneShiftCorrectionSucceeds := by
  intro rem _ hA hl
  obtain ⟨j, hj⟩ := exists_replicate_append_strip5 (shl1 rem)
  obtain ⟨rest, hrest⟩ := (matchSync_iff_exists _).1 hl
  rw [hrest] at hj
  obtain ⟨z, hz⟩ := shr1_eq_of_shl1_eq (pow_le_two_mul_hexNat_of_fillA hA) hj
  rw [hz, strip5_replicate_cons (by decide), matchSync_eq_decide]
  simp

/-! ### Behind a garbled lead-in -/

/-- Four symbols that do not show the syncword are dropped (R121, R122). -/
theorem resync_of_leadIn {g : List DecSymbol} (hlen : g.length = 4) (hg : matchSync g = false)
    (rem : List DecSymbol) : resync (g ++ rem) = resyncRemainder rem := by
  have hno : matchSync (g ++ rem) = false := by
    rw [matchSync_eq_decide, List.take_left' hlen]
    rwa [matchSync_eq_decide, List.take_of_length_le hlen.le] at hg
  rw [resync_of_not_matchSync hno, List.drop_left' hlen]

/-- Settles O17: two fives are filler and are stripped, one five or none is no filler. -/
theorem fillerPreambleIsRemoved : Obligations.FillerPreambleIsRemoved := by
  intro g rest k hlen hg
  simp only [List.append_assoc]
  rw [resync_of_leadIn hlen hg]
  refine ⟨fun hk => ?fillers, fun hk => ?fewer⟩
  case fillers =>
    obtain ⟨k, rfl⟩ : ∃ n, k = 2 + n := ⟨k - 2, by omega⟩
    have hanchored : matchSync ([hex 3#4, hex 4#4, hex 7#4, hex 5#4] ++ rest) = true := rfl
    have h5 : fill5 (List.replicate (2 + k) (hex 5#4) ++
        ([hex 3#4, hex 4#4, hex 7#4, hex 5#4] ++ rest)) = true := by
      rw [Laws.fill5_iff, List.replicate_add]
      rfl
    rw [resyncRemainder_of_fill5 h5, Laws.strip5_replicate, Laws.strip5_of_anchored _ hanchored, if_pos hanchored]
  case fewer =>
    obtain rfl | rfl : k = 0 ∨ k = 1 := by omega
    · exact resyncRemainder_of_no_filler rfl rfl
    · exact resyncRemainder_of_no_filler rfl rfl

/-- A string whose first symbol is 3 has its top bit clear, so the left shift loses nothing. -/
theorem hexNat_shl1_of_matchSync {frame : List DecSymbol} (h : matchSync frame = true) :
    hexNat (shl1 frame) = 2 * hexNat frame := by
  obtain ⟨y, rfl⟩ : ∃ y, frame = hex 3#4 :: y := by
    obtain ⟨rest, rfl⟩ := (matchSync_iff_exists frame).1 h
    exact ⟨_, rfl⟩
  rw [Laws.hexNat_shl1, Nat.mod_eq_of_lt]
  have hy := Laws.hexNat_lt y
  rw [Laws.hexNat_cons, List.length_cons, pow_succ]
  simp only [DecSymbol.nib, BitVec.reduceToNat]
  omega

/-- The right correction undoes the shift: the two nibbles 10 become fillers 5 again. -/
theorem shr1_of_shifted {frame : List DecSymbol} (ho : .other ∉ frame) (h : matchSync frame = true) :
    shr1 ([hex 10#4, hex 10#4] ++ shl1 frame) = List.replicate 2 (hex 5#4) ++ frame := by
  apply eq_of_hexNat (other_notMem_shr1 _)
  · simpa using ho
  · simp [Laws.shr1_length, Laws.shl1_length]
  · have hfives : hexNat (List.replicate 2 (hex 5#4)) = 0x55 := rfl
    have htens : hexNat [hex 10#4, hex 10#4] = 0xAA := rfl
    rw [Laws.hexNat_shr1, Laws.hexNat_append, Laws.hexNat_append, hexNat_shl1_of_matchSync h, Laws.shl1_length,
      hfives, htens]
    omega

/-- Settles O18: the right correction gives the frame back, and the left one then cannot succeed (R127). -/
theorem shiftedFrameIsRecoveredExactly : Obligations.ShiftedFrameIsRecoveredExactly := by
  intro g frame hlen hg ho hframe
  have hA : fillA ([hex 10#4, hex 10#4] ++ shl1 frame) = true := rfl
  have hhex : .other ∉ [hex 10#4, hex 10#4] ++ shl1 frame := by
    simpa using other_notMem_shl1 frame
  have hright : strip5 (shr1 ([hex 10#4, hex 10#4] ++ shl1 frame)) = frame := by
    rw [shr1_of_shifted ho hframe, Laws.strip5_replicate, Laws.strip5_of_anchored _ hframe]
  have hleft : ¬ matchSync (strip5 (shl1 ([hex 10#4, hex 10#4] ++ shl1 frame))) = true := by
    intro hl
    have hr := atMostOneShiftCorrectionSucceeds _ hhex hA hl
    rw [hright, hframe] at hr
    cases hr
  rw [List.append_assoc, resync_of_leadIn hlen hg, resyncRemainder_of_fillA rfl hA hhex, if_neg hleft, hright,
    if_pos hframe]

/-! ### The contract, and what a correction cannot restore -/

/-- Settles O15: every step of RESYNC tests what it returns, and step 1 returns the whole string. -/
theorem resyncReturnsAnAnchoredString : Obligations.ResyncReturnsAnAnchoredString :=
  ⟨fun _ a h => (Laws.matchSync_iff a).1 (matchSync_of_resync h), fun _ => resync_of_matchSync rfl⟩

/-- The bit that enters on the left shift stays last. -/
theorem getLast?_shl1 {x : List DecSymbol} (hne : x ≠ []) :
    ∃ n, (shl1 x).getLast? = some (hex n) ∧ n.getLsbD 0 = false := by
  have hpos : x.length - 1 < x.length := Nat.sub_one_lt (mt List.length_eq_zero_iff.1 hne)
  refine ⟨(vec x <<< 1).extractLsb' (4 * (x.length - 1 - (x.length - 1))) 4, ?last, ?bit⟩
  case last => rw [List.getLast?_eq_getElem?, Laws.shl1_length, shl1, Laws.getElem_nibs _ _ _ hpos]
  case bit => simp

/-- STRIP5 takes symbols off the front only. -/
theorem getLast?_strip5 {x : List DecSymbol} (hne : strip5 x ≠ []) : (strip5 x).getLast? = x.getLast? := by
  obtain ⟨fives, h⟩ := Laws.strip5_suffix x
  conv_rhs => rw [← h]
  exact (List.getLast?_append_of_ne_nil fives hne).symm

/-- Settles O19: the last bit of the left shift is 0, and STRIP5 keeps the last symbol. -/
theorem leftCorrectionClearsTheLastBit : Obligations.LeftCorrectionClearsTheLastBit := by
  intro d hd hA ho hl
  have h5 : fill5 (d.drop 4) = false := Bool.eq_false_iff.2 fun h5 => not_fill5_and_fillA _ ⟨h5, hA⟩
  have hrem : d.drop 4 ≠ [] := by
    intro h
    rw [h] at hA
    cases hA
  have hne : strip5 (shl1 (d.drop 4)) ≠ [] := by
    intro h
    rw [h] at hl
    cases hl
  obtain ⟨n, hlast, hbit⟩ := getLast?_shl1 hrem
  refine ⟨strip5 (shl1 (d.drop 4)), n, ?returned, (getLast?_strip5 hne).trans hlast, hbit⟩
  case returned => rw [resync_of_not_matchSync hd, resyncRemainder_of_fillA h5 hA ho, if_pos hl]

end Sys2Proof.Machine
end

section
/-! The field multiplexer and the scale units (42_fieldmux.md rules R130 to R145, 43_scale.md). A select reads
nibbles of the adjusted string; where the window is ready the string has a frame vector, the only one, and the
select reads bits of it. -/

namespace Sys2Proof.Machine

/-! ### The frame vector (R55) -/

/-- The nibbles of the model's frame vector are the first 41 symbols. -/
theorem take_of_windowReady {adj : List DecSymbol} (h : windowReady adj = true) :
    adj.take 41 = nibs 41 (frameVector adj) := by
  obtain ⟨hlen, ho⟩ := (Laws.windowReady_iff adj).1 h
  exact Laws.eq_nibs_of_hexNat _ ho 41 (frameVector adj) (List.length_take_of_le hlen)
    (Laws.memRead_toNat adj 0 41 hlen).symm

theorem isFrameVector_frameVector {adj : List DecSymbol} (h : windowReady adj = true) :
    IsFrameVector adj (frameVector adj) := by
  intro i hi
  rw [← List.getElem?_take_of_lt hi, take_of_windowReady h, Laws.getElem_nibs 41 (frameVector adj) i hi]
  congr 3
  omega

/-- A frame vector is what a read of all 41 nibbles gives. -/
theorem eq_frameVector {adj : List DecSymbol} {fv : BitVec 164} (h : IsFrameVector adj fv) :
    fv = frameVector adj :=
  calc fv
    _ = fv.extractLsb' 0 164 := BitVec.extractLsb'_eq_self.symm
    _ = memRead adj 0 41 := (memRead_of_isFrameVector h 0 41 le_rfl).symm

/-- Settles O21: the first 41 symbols of a ready window are the nibbles of one vector, and a frame vector makes a
window ready. -/
theorem readyWindowHasOneFrameVector : Obligations.ReadyWindowHasOneFrameVector := by
  intro adj
  refine ⟨fun h => ⟨isFrameVector_frameVector h, fun _ => eq_frameVector⟩, fun h fv hfv => ?_⟩
  rw [windowReady_of_isFrameVector hfv] at h
  cases h

/-! ### The selects (R131 to R143) -/

theorem select_of_isFrameVector {s : State} {fv : BitVec 164} (h : IsFrameVector s.adjusted fv) {lo n : Nat}
    (hn : lo + n ≤ 41) :
    select lo n s = .next { s with result := .bits (4 * n) (fv.extractLsb' (4 * (41 - lo - n)) (4 * n)) } := by
  rw [← memRead_of_isFrameVector h lo n hn]
  exact if_pos (windowReady_of_isFrameVector h)

/-- Settles O22: each select is a read of its nibbles (`select_of_isFrameVector` at its offset), and the record of
DECODE is made of the same slices. -/
theorem selectsReturnTheirSlices : Obligations.SelectsReturnTheirSlices := by
  intro s fv h
  have hsel : ∀ lo n, lo + n ≤ 41 → select lo n s = _ := fun _ _ hn => select_of_isFrameVector h hn
  refine ⟨hsel 4 4 (by decide), hsel 8 4 (by decide), hsel 12 2 (by decide), hsel 14 2 (by decide),
    hsel 16 2 (by decide), hsel 18 6 (by decide), hsel 24 4 (by decide), hsel 28 4 (by decide),
    hsel 32 2 (by decide), hsel 34 2 (by decide), hsel 36 4 (by decide), hsel 40 1 (by decide),
    _, decodeMakesTheRecord.1 s fv h, ?registers⟩
  case registers => exact ⟨rfl, rfl, rfl, rfl, rfl, rfl, rfl, rfl, rfl, rfl, rfl, rfl⟩

/-- Settles O23: the constant does not look at the window, and behind RESYNC the window starts with it. -/
theorem syncwordSelectIsTheConstant : Obligations.SyncwordSelectIsTheConstant := by
  refine ⟨fun s => ⟨rfl, rfl⟩, fun d a fv hd hfv => ?slice⟩
  case slice =>
    have hsync : a.take 4 = [.hex 3#4, .hex 4#4, .hex 7#4, .hex 5#4] :=
      (Laws.matchSync_iff a).1 (matchSync_of_resync hd)
    calc fv.extractLsb' 148 16
      _ = memRead a 0 4 := (memRead_of_isFrameVector hfv 0 4 (by decide)).symm
      _ = BitVec.ofNat 16 (hexNat (a.take 4)) := rfl
      _ = 0x3475 := by rw [hsync]; rfl

/-- Settles O25: the slices are adjacent, so each joins the one below it. -/
theorem fieldsPartitionTheWindow : Obligations.FieldsPartitionTheWindow := by
  intro adj fv h
  rw [recordOf_of_isFrameVector h]
  simp (disch := decide) only [BitVec.extractLsb'_append_extractLsb'_eq_extractLsb']
  exact BitVec.extractLsb'_eq_self.symm

/-! ### The scale units (R151, R152) -/

/-- A quotient by `SCALE` that fits its register is held there exactly. -/
theorem toNat_whole {n q : Nat} (h : n / 100 < 2 ^ q) : (BitVec.ofNat q (n / Config.scale)).toNat = n / 100 :=
  (BitVec.toNat_ofNat _ _).trans (Nat.mod_eq_of_lt h)

/-- The hundredths always fit seven bits. -/
theorem toNat_hundredths (n : Nat) : (BitVec.ofNat 7 (n % Config.scale)).toNat = n % 100 :=
  (BitVec.toNat_ofNat _ _).trans (Nat.mod_eq_of_lt ((Nat.mod_lt n (by decide)).trans (by decide)))

/-- Settles O26: a 24-bit number is below `100 * 2 ^ 18`. -/
theorem scale24DividesExactly : Obligations.Scale24DividesExactly := by
  intro r s
  have hq : (scale24 r).1.toNat = r.toNat / 100 := toNat_whole (by omega)
  have hf : (scale24 r).2.toNat = r.toNat % 100 := toNat_hundredths _
  exact ⟨_, _, rfl, hq, hf, by omega, by omega, by omega⟩

/-- Settles O27: a 16-bit number is below `100 * 2 ^ 10`. -/
theorem scale16DividesExactly : Obligations.Scale16DividesExactly := by
  intro r s
  have hq : (scale16 r).1.toNat = r.toNat / 100 := toNat_whole (by omega)
  have hf : (scale16 r).2.toNat = r.toNat % 100 := toNat_hundredths _
  exact ⟨_, _, rfl, hq, hf, by omega, by omega, by omega⟩

end Sys2Proof.Machine
end

section
/-! The CRC generator on nibbles, bytes and words (44_crc16.md rules R160 to R168). The serial form takes one data
bit at a time; the common software form adds the data at the top of the register and then only shifts. `crcShift` is
that shift. Data added behind some shifts is data added further down in front of them (`crcShift_iterate_xor`), and
this turns one form into the other. -/

namespace Sys2Proof.Machine

/-- One shift of the register, the polynomial added where the bit that leaves is 1. -/
def crcShift (c : BitVec 16) : BitVec 16 := if c.getLsbD 15 then (c <<< 1) ^^^ 0x1021 else c <<< 1

/-! ### The shift (R162) -/

/-- A shift is a step of the generator on the data bit 0. -/
theorem crcShift_eq_crcBit (c : BitVec 16) : crcShift c = crcBit c false := by
  rw [crcBit, Bool.xor_false]
  rfl

/-- A data bit is added at the top before the shift. -/
theorem crcBit_eq_crcShift (c : BitVec 16) (d : Bool) :
    crcBit c d = crcShift (c ^^^ (BitVec.ofBool d ++ 0#15)) := by
  cases d with
  | false => exact (crcShift_eq_crcBit c).symm.trans (congrArg crcShift BitVec.xor_zero.symm)
  | true =>
    have hleaves : (c ^^^ 0x8000#16) <<< 1 = c <<< 1 := by
      rw [BitVec.shiftLeft_xor_distrib]
      exact BitVec.xor_zero
    have htop : (c ^^^ 0x8000#16).getLsbD 15 = !c.getLsbD 15 := by simp
    have hdata : BitVec.ofBool true ++ 0#15 = 0x8000#16 := rfl
    rw [hdata, crcShift, crcBit, hleaves, htop, Bool.xor_true]
    rfl

/-- What is added behind a shift, and does not touch bit 0, is added one place lower in front of it. -/
theorem crcShift_xor (x : BitVec 16) {y : BitVec 16} (hy : y.getLsbD 0 = false) :
    crcShift x ^^^ y = crcShift (x ^^^ (y >>> 1)) := by
  have htop : (x ^^^ (y >>> 1)).getLsbD 15 = x.getLsbD 15 := by simp
  have hback : (y >>> 1) <<< 1 = y := by
    apply BitVec.eq_of_getLsbD_eq
    intro i hi
    rcases i with _ | i
    · simpa using hy.symm
    · simpa [Nat.add_comm 1 i] using fun _ => hi
  rw [crcShift, crcShift, htop, BitVec.shiftLeft_xor_distrib, hback]
  split
  · rw [BitVec.xor_assoc, BitVec.xor_assoc, BitVec.xor_comm y]
  · rfl

theorem crcShift_iterate_xor (k : Nat) (x : BitVec 16) {y : BitVec 16} (hy : ∀ i, i < k → y.getLsbD i = false) :
    crcShift^[k] x ^^^ y = crcShift^[k] (x ^^^ (y >>> k)) := by
  induction k generalizing y with
  | zero => simp
  | succ k ih =>
    have hlow : ∀ i, i < k → (y >>> 1).getLsbD i = false := fun i hi => by
      rw [BitVec.getLsbD_ushiftRight]
      exact hy _ (by omega)
    rw [Function.iterate_succ_apply', Function.iterate_succ_apply', crcShift_xor _ (hy 0 k.succ_pos), ih hlow,
      ← BitVec.shiftRight_add, Nat.add_comm 1 k]

/-- Bit 0 of a shifted register shows whether the polynomial was added. -/
theorem crcShift_eq_zero_iff (x : BitVec 16) : crcShift x = 0 ↔ x = 0 := by
  constructor
  · intro h
    have htop : x.getLsbD 15 = false := by
      have hbit := getLsbD_crcBit x false (i := 0) (by decide)
      rw [← crcShift_eq_crcBit, h] at hbit
      simpa using hbit.symm
    have hshift : x <<< 1 = 0 := by
      rw [crcShift, htop] at h
      exact h
    have hlt := (getLsbD_top_eq_false_iff x).1 htop
    bv_omega
  · rintro rfl
    rfl

theorem crcShift_iterate_eq_zero_iff (k : Nat) (x : BitVec 16) : crcShift^[k] x = 0 ↔ x = 0 := by
  induction k generalizing x with
  | zero => rfl
  | succ k ih => rw [Function.iterate_succ_apply, ih, crcShift_eq_zero_iff]

/-! ### Nibbles, bytes and words (R163, R164) -/

/-- Data at the top of the register leaves the bits below it alone. -/
theorem getLsbD_append_zeros {w : Nat} (d : BitVec w) (n : Nat) :
    ∀ i, i < n → (d ++ 0#n).getLsbD i = false := by
  intro i hi
  rw [BitVec.getLsbD_append, if_pos hi, BitVec.getLsbD_zero]

/-- A data bit that comes after `k` shifts is one added `k` places below the top in front of them. -/
theorem crcBit_crcShift_iterate {k : Nat} (hk : k ≤ 15) (x : BitVec 16) (d : Bool) :
    crcBit (crcShift^[k] x) d = crcShift^[k + 1] (x ^^^ ((BitVec.ofBool d ++ 0#15) >>> k)) := by
  have hlow : ∀ i, i < k → (BitVec.ofBool d ++ 0#15).getLsbD i = false :=
    fun i hi => getLsbD_append_zeros _ 15 i (hi.trans_le hk)
  rw [crcBit_eq_crcShift, crcShift_iterate_xor k x hlow, Function.iterate_succ_apply']

/-- CRC.NIB as four shifts: the bits added one by one are the nibble added at the top. -/
theorem crcNib_eq_crcShift (c : BitVec 16) (n : Nib) : crcNib c n = crcShift^[4] (c ^^^ (n ++ 0#12)) := by
  have hnibble : ((BitVec.ofBool (n.getLsbD 3) ++ 0#15) >>> 0) ^^^ (((BitVec.ofBool (n.getLsbD 2) ++ 0#15) >>> 1) ^^^
      (((BitVec.ofBool (n.getLsbD 1) ++ 0#15) >>> 2) ^^^ ((BitVec.ofBool (n.getLsbD 0) ++ 0#15) >>> 3))) =
        n ++ 0#12 := by
    revert n
    decide
  have hfirst := crcBit_crcShift_iterate (k := 0) (by decide) c (n.getLsbD 3)
  rw [Function.iterate_zero_apply] at hfirst
  rw [crcNib, hfirst, crcBit_crcShift_iterate (by decide), crcBit_crcShift_iterate (by decide),
    crcBit_crcShift_iterate (by decide), BitVec.xor_assoc, BitVec.xor_assoc, BitVec.xor_assoc, hnibble]

/-- CRC.BYTE as eight shifts. -/
theorem crcByte_eq_crcShift (c : BitVec 16) (b : Byte) : crcByte c b = crcShift^[8] (c ^^^ (b ++ 0#8)) := by
  have hbyte : (b.extractLsb' 4 4 ++ 0#12) ^^^ ((b.extractLsb' 0 4 ++ 0#12) >>> 4) = b ++ 0#8 := by
    revert b
    decide +kernel
  have hlow : ∀ i, i < 4 → (b.extractLsb' 0 4 ++ 0#12).getLsbD i = false :=
    fun i hi => getLsbD_append_zeros _ 12 i (by omega)
  rw [crcByte, crcNib_eq_crcShift, crcNib_eq_crcShift, crcShift_iterate_xor 4 _ hlow, BitVec.xor_assoc, hbyte,
    ← Function.iterate_add_apply]

/-- Two bytes, the high one first, as sixteen shifts. -/
theorem crcBytes_word (c r : BitVec 16) :
    crcBytes c [r.extractLsb' 8 8, r.extractLsb' 0 8] = crcShift^[16] (c ^^^ r) := by
  have hword : (r.extractLsb' 8 8 ++ 0#8) ^^^ ((r.extractLsb' 0 8 ++ 0#8) >>> 8) = r := by
    apply BitVec.eq_of_getLsbD_eq
    intro i hi
    rw [BitVec.getLsbD_xor, BitVec.getLsbD_ushiftRight, BitVec.getLsbD_append, BitVec.getLsbD_append]
    by_cases hlo : i < 8
    · simp [hlo]
    · simp [hlo, show i - 8 < 8 by omega, show 8 + (i - 8) = i by omega]
  have hlow : ∀ i, i < 8 → (r.extractLsb' 0 8 ++ 0#8).getLsbD i = false := getLsbD_append_zeros _ 8
  calc crcBytes c [r.extractLsb' 8 8, r.extractLsb' 0 8]
    _ = crcByte (crcByte c (r.extractLsb' 8 8)) (r.extractLsb' 0 8) := rfl
    _ = crcShift^[16] (c ^^^ r) := by
      rw [crcByte_eq_crcShift, crcByte_eq_crcShift, crcShift_iterate_xor 8 _ hlow, BitVec.xor_assoc, hword,
        ← Function.iterate_add_apply]

/-- CRC.NIB in closed form: the bits below the top nibble only move up. -/
theorem crcNib_eq_closed (c : BitVec 16) (n : Nib) :
    crcNib c n = (c <<< 4) ^^^ ((c.extractLsb' 12 4 ^^^ n) ++ 0#3 ++ (c.extractLsb' 12 4 ^^^ n) ++ 0#1 ++
      (c.extractLsb' 12 4 ^^^ n) : BitVec 16) := by
  have hsplit : c ^^^ (n ++ 0#12) = ((c.extractLsb' 12 4 ^^^ n) ++ 0#12) ^^^ ((c <<< 4) >>> 4) := by
    apply BitVec.eq_of_getLsbD_eq
    intro i hi
    rw [BitVec.getLsbD_xor, BitVec.getLsbD_xor, BitVec.getLsbD_ushiftRight, BitVec.getLsbD_append,
      BitVec.getLsbD_append, BitVec.getLsbD_shiftLeft]
    by_cases hlo : i < 12
    · simp [hlo, show 4 + i < 16 by omega]
    · simp [hlo, show i - 12 < 4 by omega, show ¬ 4 + i < 16 by omega, show 12 + (i - 12) = i by omega]
  have htop : ∀ t : Nib, crcShift^[4] (t ++ 0#12) = (t ++ 0#3 ++ t ++ 0#1 ++ t : BitVec 16) := by
    decide
  have hlow : ∀ i, i < 4 → (c <<< 4).getLsbD i = false := fun i hi => by
    rw [BitVec.getLsbD_shiftLeft]
    simp [hi]
  rw [crcNib_eq_crcShift, hsplit, ← crcShift_iterate_xor 4 _ hlow, htop, BitVec.xor_comm]

/-- The five places of the closed form are those of the polynomial times the nibble. -/
theorem spread_eq_mul_poly (t : Nib) : (t ++ 0#3 ++ t ++ 0#1 ++ t : BitVec 16) = t.setWidth 16 * 0x1021 := by
  revert t
  decide

/-- Settles O30: the closed form of the register, and the product. -/
theorem crcNibHasItsClosedForm : Obligations.CrcNibHasItsClosedForm := by
  intro n s t
  have hstep : exec (.crcNib n) s = .next { s with crc := crcNib s.crc n, result := .none } := rfl
  refine ⟨?closed, spread_eq_mul_poly t⟩
  case closed => rw [hstep, crcNib_eq_closed]

/-- Settles O31: eight shifts behind the byte, which is added at the top. -/
theorem crcByteHasItsSoftwareForm : Obligations.CrcByteHasItsSoftwareForm := by
  intro b s
  have hstep : exec (.crcByte b) s = .next { s with crc := crcByte s.crc b, result := .none } := rfl
  rw [hstep, crcByte_eq_crcShift]
  rfl

/-! ### Messages (R166 to R168) -/

/-- Settles O32: CRC.BYTE is CRC.NIB on its two nibbles, byte by byte. -/
theorem crcBytesAndNibblesAgree : Obligations.CrcBytesAndNibblesAgree := by
  intro c bs
  induction bs generalizing c with
  | nil => rfl
  | cons b bs ih => exact ih (crcByte c b)

/-- Settles O28: the empty message leaves the initial value. -/
theorem crcInitLoadsTheInitialValue : Obligations.CrcInitLoadsTheInitialValue :=
  ⟨fun _ => rfl, rfl⟩

/-- Settles O34: one run over a fixed message. -/
theorem crcCheckValueOfNineDigits : Obligations.CrcCheckValueOfNineDigits := by
  unfold Obligations.CrcCheckValueOfNineDigits
  decide +kernel

theorem crcBytes_word_eq_zero_iff (c r : BitVec 16) :
    crcBytes c [r.extractLsb' 8 8, r.extractLsb' 0 8] = 0 ↔ r = c := by
  rw [crcBytes_word, crcShift_iterate_eq_zero_iff]
  exact BitVec.xor_eq_zero_iff.trans eq_comm

/-- A part of a part of a word is a part of the word. -/
theorem extractLsb'_of_part {w : Nat} (x : BitVec w) {i m j n : Nat} (h : j + n ≤ m) :
    (x.extractLsb' i m).extractLsb' j n = x.extractLsb' (i + j) n := by
  apply BitVec.eq_of_getLsbD_eq
  intro k hk
  have hjk : j + k < m := by omega
  simp only [BitVec.getLsbD_extractLsb', hjk, decide_true, Bool.true_and, Nat.add_assoc]

/-- Nibbles 8 to 39 are the span and then the received checksum. -/
theorem crcNibs_span_checksum (c : BitVec 16) (fv : BitVec 164) :
    crcNibs c ((List.range 32).map fun i => fv.extractLsb' (128 - 4 * i) 4) =
      crcBytes (crcNibs c (spanOfVector fv))
        [(fv.extractLsb' 4 16).extractLsb' 8 8, (fv.extractLsb' 4 16).extractLsb' 0 8] := by
  have hbyte : ∀ j k, j + 8 ≤ 16 → k + 4 ≤ 8 →
      ((fv.extractLsb' 4 16).extractLsb' j 8).extractLsb' k 4 = fv.extractLsb' (4 + j + k) 4 := by
    intro j k hj hk
    rw [extractLsb'_of_part _ hj, extractLsb'_of_part _ hk]
  rw [crcBytesAndNibblesAgree]
  simp only [List.flatMap_cons, List.flatMap_nil, List.append_nil, List.cons_append, List.nil_append]
  rw [hbyte 8 4 (by decide) (by decide), hbyte 8 0 (by decide) (by decide), hbyte 0 4 (by decide) (by decide),
    hbyte 0 0 (by decide) (by decide), ← Laws.crcNibs_append]
  rfl

theorem classify_eq_valid_iff (a r : BitVec 16) : classify a r = .valid ↔ a = r := by
  refine ⟨fun h => ?_, fun h => if_pos h⟩
  unfold classify at h
  split at h
  case isTrue ha => exact ha
  case isFalse =>
    split at h
    · cases h
    · split at h <;> cases h

/-- Settles O35: the class is Valid where the received checksum is the computed one, and there the register fed that
checksum becomes 0. -/
theorem residueIsZeroExactlyForTheOwnChecksum : Obligations.ResidueIsZeroExactlyForTheOwnChecksum := by
  refine ⟨crcBytes_word_eq_zero_iff, fun s fv h => ⟨_, decodeMakesTheRecord.1 s fv h, ?_⟩⟩
  rw [crcNibs_span_checksum, crcBytes_word_eq_zero_iff]
  exact (classify_eq_valid_iff _ _).trans eq_comm

/-! ### The comparator (R182) -/

/-- Settles O37: both shifted arms hold only for `A = R = 0`. -/
theorem shiftedClassesExcludeEachOther : Obligations.ShiftedClassesExcludeEachOther := by
  intro a r hdouble hhalf
  exact (classify_eq_valid_iff a r).2 (BitVec.eq_of_toNat_eq (by omega))

end Sys2Proof.Machine
end

section
/-! DECODE reads of the adjusted string whether it is long enough, whether its first 41 symbols are hexadecimal, and
the slices from nibble 4 on (20_memory.md section 3, 46_decode.md section 1). -/

namespace Sys2Proof.Machine

/-- Every select of the record and the CRC span is a slice from nibble 4 on, inside the window. -/
theorem record_and_crc_congr {x y : List DecSymbol}
    (h : ∀ a n, 4 ≤ a → a + n ≤ 41 → slice x a n = slice y a n) :
    recordOf x = recordOf y ∧ crcSpan x = crcSpan y := by
  have hread : ∀ a n, 4 ≤ a → a + n ≤ 41 → memRead x a n = memRead y a n := fun a n ha hn => by
    rw [memRead, memRead, h a n ha hn]
  have hspan : spanNibbles x = spanNibbles y := congrArg (List.map DecSymbol.nib) (h 8 28 (by decide) (by decide))
  refine ⟨?record, congrArg (crcNibs Config.crcInit) hspan⟩
  case record => simp (disch := decide) only [recordOf, hread]

/-- Two states that DECODE cannot tell apart get the same outcome from it and, where it is a record, the same
registers. -/
theorem exec_decode_congr {s t : State} (hfail : decodeFailure s.adjusted = decodeFailure t.adjusted)
    (hslice : ∀ a n, 4 ≤ a → a + n ≤ 41 → slice s.adjusted a n = slice t.adjusted a n) :
    ∃ s' t', exec .decode s = .next s' ∧ exec .decode t = .next t' ∧ s'.result = t'.result ∧
      (s'.result = .outcome .ok → s'.record = t'.record ∧ s'.crc = t'.crc ∧ s'.crcResult = t'.crcResult) := by
  obtain ⟨hrecord, hcrc⟩ := record_and_crc_congr hslice
  cases hf : decodeFailure t.adjusted with
  | none =>
    rw [hf] at hfail
    refine ⟨s.writeRecord.returns (.outcome .ok), t.writeRecord.returns (.outcome .ok), ?_, ?_, rfl,
      fun _ => ⟨hrecord, hcrc, ?_⟩⟩
    · simp only [exec, execDecode, hfail]
    · simp only [exec, execDecode, hf]
    · exact congrArg₂ classify hcrc (congrArg Record.crcRx hrecord)
  | some f =>
    rw [hf] at hfail
    refine ⟨s.unspecifyRecord.returns (.outcome f.status), t.unspecifyRecord.returns (.outcome f.status), ?_, ?_,
      rfl, fun h => ?_⟩
    · simp only [exec, execDecode, hfail]
    · simp only [exec, execDecode, hf]
    · cases f <;> cases h

/-- DECODE's checks see no more than the length and the presence of a non-hexadecimal symbol. -/
theorem decodeFailure_congr {x y : List DecSymbol} (hlen : x.length < 41 ↔ y.length < 41)
    (hother : .other ∈ x.take 41 ↔ .other ∈ y.take 41) : decodeFailure x = decodeFailure y := by
  have hok : allOk (x.take 41) = allOk (y.take 41) :=
    Bool.eq_iff_iff.2 (by rw [Laws.allOk_iff, Laws.allOk_iff, hother])
  exact if_congr hlen rfl (congrArg (fun ok : Bool => if ok then none else some Failure.badHex) hok)

/-- Settles O40: a slice inside the window is a slice of the first 41 symbols. -/
theorem decodeIgnoresSymbolsBeyondTheFrame : Obligations.DecodeIgnoresSymbolsBeyondTheFrame := by
  intro s t hs ht htake
  have hwindow : ∀ (x : List DecSymbol) (a n : Nat), a + n ≤ 41 → slice (x.take 41) a n = slice x a n := by
    intro x a n hn
    rw [slice, slice, List.drop_take, List.take_take, min_eq_left (by omega)]
  refine exec_decode_congr (decodeFailure_congr (by omega) (by rw [htake])) fun a n _ hn => ?_
  rw [← hwindow _ a n hn, htake, hwindow _ a n hn]

/-- Settles O41: the first four symbols count for the checks only, as hexadecimal ones, and no slice from nibble 4 on
holds one of them. -/
theorem decodeDoesNotTestTheSyncword : Obligations.DecodeDoesNotTestTheSyncword := by
  intro s t hs ht hlen hdrop
  have hother : ∀ x : List DecSymbol, .other ∉ x.take 4 →
      (.other ∈ x.take 41 ↔ .other ∈ (x.drop 4).take 37) := by
    intro x hx
    rw [show 41 = 4 + 37 from rfl, List.take_add, List.mem_append, or_iff_right hx]
  have hslice : ∀ (x : List DecSymbol) (a n : Nat), 4 ≤ a → slice x a n = slice (x.drop 4) (a - 4) n := by
    intro x a n ha
    rw [slice, slice, List.drop_drop, Nat.add_sub_cancel' ha]
  obtain ⟨s', t', hs', ht', hresult, hrecord⟩ := exec_decode_congr (s := s) (t := t)
    (decodeFailure_congr (by omega) (by rw [hother _ hs, hother _ ht, hdrop]))
    fun a n ha _ => by rw [hslice _ a n ha, hslice _ a n ha, hdrop]
  exact ⟨s', t', hs', ht', hresult, hrecord, rfl⟩

end Sys2Proof.Machine
end

section
/-! The operations that read the raw string (R21, R101) and the conditions under which an operation is refused by
name or completes with a free value (log entries 9, 10, 12 and 14). -/

namespace Sys2Proof.Machine

/-! ### HEXDECS (R101) -/

theorem exec_hexdecs {s : State} (hp : s.presentable = true) :
    exec .hexdecs s = .next { s with result := .symbols (hexdecs s.rawString) } := by
  simp only [exec, execHexdecs, Laws.withRaw_of_presentable _ hp]
  rfl

/-- Settles O7: the decoder is mapped over `RAW[0..RAWLEN)`. -/
theorem hexdecsDecodesEachCharacter : Obligations.HexdecsDecodesEachCharacter := by
  intro s hp
  have hlen : s.rawString.length = s.mem.rawLen := Laws.rawString_length s hp
  refine ⟨hexdecs s.rawString, exec_hexdecs hp, (Laws.hexdecs_length _).trans hlen, fun i hi => ?_⟩
  have hi' : i < s.rawString.length := hlen.symm ▸ hi
  have hraw : s.rawString[i]? = s.mem.raw[i]? := List.getElem?_take_of_lt hi
  refine ⟨s.rawString[i], hexdec s.rawString[i], ?_, ?_, exec_hexdec _ s⟩
  · rw [← hraw, List.getElem?_eq_getElem hi']
  · rw [hexdecs, List.getElem?_map, List.getElem?_eq_getElem hi', Option.map_some]

/-! ### Refusals -/

theorem withRaw_of_not_presentable {s : State} (h : s.presentable = false) (k : List Byte → Out) :
    withRaw s k = .refused .rawNotPresentable :=
  if_neg (Bool.eq_false_iff.1 h)

theorem withResync_of_absent {s : State} (h : s.params.hasResync = false) (k : Out) :
    withResync s k = .refused .resyncAbsent :=
  if_neg (Bool.eq_false_iff.1 h)

/-- Settles O50: a string longer than `LMAX` is not presentable. -/
theorem tooLongStringsAreRefused : Obligations.TooLongStringsAreRefused := by
  intro s hlong
  have hp : s.presentable = false := by
    rw [Bool.eq_false_iff, Ne, Laws.presentable_iff]
    omega
  have hrefused := withRaw_of_not_presentable hp
  refine ⟨?hexdecs, fun hw => ?start, fun hu => ⟨?resync, ?frame⟩⟩
  case hexdecs => simp only [exec, execHexdecs, hrefused]
  case start => exact (if_neg (by simp [hw])).trans (hrefused _)
  case resync => exact (Laws.withResync_of_present _ hu).trans (hrefused _)
  case frame => exact (Laws.withResync_of_present _ hu).trans (hrefused _)

/-- Settles O51: the shape is tested before the symbols. -/
theorem illShapedOperandsAreRefused : Obligations.IllShapedOperandsAreRefused := by
  refine ⟨fun x s hw => ⟨if_neg (Bool.eq_false_iff.1 hw), ?lengths⟩, fun s hu => ⟨?shl1, ?shr1⟩⟩
  case lengths =>
    have h := (wellFormed_hexint_iff x).not.1 (Bool.eq_false_iff.1 hw)
    tauto
  case shl1 => exact Laws.withResync_of_present _ hu
  case shr1 => exact Laws.withResync_of_present _ hu

/-! A START on a presentable port with no transaction in progress completes, whatever the delay. -/

section Start

variable {s : State} (hw : s.window = none) (hp : s.presentable = true)
include hw hp

theorem exec_start_of_delay_zero (hd : s.delay = 0) : exec .start s = .next (s.transaction s.rawString) := by
  simp [exec, execStart, hw, Laws.withRaw_of_presentable _ hp, hd]

theorem exec_start_of_delay_succ {n : Nat} (hd : s.delay = n + 1) :
    exec .start s = .next (s.openWindow s.rawString n) := by
  simp [exec, execStart, hw, Laws.withRaw_of_presentable _ hp, hd]

end Start

/-- Settles O52: each operation of the unit asks for the unit first; START does not. -/
theorem absentUnitIsRefused : Obligations.AbsentUnitIsRefused := by
  intro s x hu
  refine ⟨?unit, fun hw hp => ?start⟩
  case unit =>
    simp only [List.forall_mem_cons, List.not_mem_nil, false_implies, implies_true, and_true]
    have h := withResync_of_absent hu
    exact ⟨h _, h _, h _, h _, h _, h _, h _, h _⟩
  case start =>
    cases hd : s.delay with
    | zero => exact ⟨_, exec_start_of_delay_zero hw hp hd⟩
    | succ n => exact ⟨_, exec_start_of_delay_succ hw hp hd⟩

/-! ### Free values (log entry 9) -/

/-- Where the window is not ready a select draws a value of its width. -/
theorem select_of_not_ready {s : State} (h : windowReady s.adjusted = false) (lo n : Nat) :
    ∃ v : BitVec (4 * n),
      select lo n s = .next { s with result := .bits (4 * n) v, draws := s.draws + 1 } :=
  ⟨_, if_neg (Bool.eq_false_iff.1 h)⟩

/-- On a non-hexadecimal symbol a shift draws a sequence of hexadecimal symbols. -/
theorem runShift_of_other {x : List DecSymbol} (hx : .other ∈ x) (f : List DecSymbol → List DecSymbol)
    (s : State) : ∃ y : List DecSymbol, y.length = x.length ∧ .other ∉ y ∧
      runShift f x s = .next { s with result := .symbols y, draws := s.draws + 1 } :=
  ⟨_, Laws.nibs_length _ _, Laws.other_notMem_nibs _ _, if_neg fun h => (Laws.allOk_iff x).1 h hx⟩

/-- Settles O53: each operation takes its second branch, which draws one value. -/
theorem unstatedValuesStillComplete : Obligations.UnstatedValuesStillComplete := by
  intro s x
  refine ⟨fun hx hw => ?hexint, fun hu hx => ?shifts, fun hn => ?selects, fun hn => ?crcSpan⟩
  case hexint =>
    have hbad : ¬ allOk x = true := fun h => (Laws.allOk_iff x).1 h hx
    exact ⟨_, (if_pos hw).trans (if_neg hbad)⟩
  case shifts =>
    have hne : 1 ≤ x.length := List.length_pos_of_mem hx
    have hrun : ∀ (i : Instr) (f : List DecSymbol → List DecSymbol), exec i s = withResync s
        (if decide (1 ≤ x.length) then runShift f x s else .refused .operandShape) →
        ∃ y : List DecSymbol, y.length = x.length ∧ .other ∉ y ∧
          exec i s = .next { s with result := .symbols y, draws := s.draws + 1 } := by
      intro i f hi
      obtain ⟨y, hlen, hy, hrun⟩ := runShift_of_other hx f s
      refine ⟨y, hlen, hy, hi.trans ((Laws.withResync_of_present _ hu).trans ?_)⟩
      exact (if_pos (decide_eq_true hne)).trans hrun
    simp only [List.forall_mem_cons, List.not_mem_nil, false_implies, implies_true, and_true]
    exact ⟨hrun _ shl1 rfl, hrun _ shr1 rfl⟩
  case selects =>
    have hsel := select_of_not_ready hn
    simp only [List.forall_mem_cons, List.not_mem_nil, false_implies, implies_true, and_true]
    refine ⟨⟨hsel 4 4, hsel 8 4, hsel 24 4, hsel 28 4, hsel 36 4⟩,
      ⟨hsel 12 2, hsel 14 2, hsel 16 2, hsel 32 2, hsel 34 2⟩, hsel 18 6, hsel 40 1,
      _, ?_, if_neg (Bool.eq_false_iff.1 hn)⟩
    rw [List.length_map, List.length_range]
    rfl
  case crcSpan => exact ⟨_, if_neg (Bool.eq_false_iff.1 hn)⟩

end Sys2Proof.Machine
end

section
/-! What the host reads (10_state.md section 4, R26 and R28), and that a transaction shows it a function of the
string on the port (46_decode.md section 3, R197, R219). The outputs depend on the flags and, where these make them
valid, on the registers behind them; the end of a transaction fixes all of these, and its delay keeps the port and
the parameters. -/

namespace Sys2Proof.Machine

/-! ### Which output has a value (R26, R28) -/

theorem isSome_ifRecord_iff (s : State) (v : Nat) :
    (ifRecord s v).isSome = true ↔ s.done = true ∧ s.status = .ok := by
  rw [← recValid_iff, ifRecord]
  cases s.recValid <;> simp

theorem ifRecord_of_recValid {s : State} (h : s.recValid = true) (v : Nat) : ifRecord s v = some v := if_pos h

/-- Settles O57: the flags decide which reads have a value; each output is its own arm of `hostRead`. -/
theorem outputsAreReadableExactlyWhenValid : Obligations.OutputsAreReadableExactlyWhenValid := by
  intro s
  have hrec := isSome_ifRecord_iff s
  refine ⟨?done, rfl, ?recValid, ?statusReadable, hostRead_status_of_done, ?recordReadable, fun hd hok => ?record,
    ?adjLenReadable, fun i => ?adjReadable, fun hd hf => ?adj⟩
  case done => cases hd : s.done <;> simp [hostRead, hd]
  case recValid =>
    simp only [← recValid_iff, hostRead]
    cases s.recValid <;> rfl
  case statusReadable => cases hd : s.done <;> simp [hostRead, hd]
  case recordReadable =>
    simp only [List.forall_mem_cons, List.not_mem_nil, false_implies, implies_true, and_true]
    exact ⟨hrec _, hrec _, hrec _, hrec _, hrec _, hrec _, hrec _, hrec _, hrec _, hrec _, hrec _, hrec _,
      hrec _, hrec _, hrec _, hrec _, hrec _, hrec _⟩
  case record =>
    have hval := ifRecord_of_recValid ((recValid_iff s).2 ⟨hd, hok⟩)
    exact ⟨hval _, hval _, hval _, hval _, hval _, hval _, hval _, hval _, hval _, hval _, hval _, hval _,
      hval _, hval _, hval _, hval _, hval _, hval _⟩
  case adjLenReadable =>
    rw [← adjValid_iff]
    cases hv : s.adjValid <;> simp [hostRead, hv]
  case adjReadable =>
    rw [← adjValid_iff]
    cases hv : s.adjValid <;> simp [hostReadAdj, hv]
  case adj =>
    have hv := adjValid_of_done hd hf
    exact ⟨if_pos hv, fun i => if_pos hv⟩

/-! ### States the host cannot tell apart (R19) -/

/-- The host sees the flags and, where they make them valid, the record and the adjusted string. -/
theorem sameOutputs_of_eq {s t : State} (hdone : s.done = t.done) (hstatus : s.status = t.status)
    (hrecord : s.recValid = true → s.record = t.record ∧ s.crc = t.crc ∧ s.crcResult = t.crcResult)
    (hadj : s.adjValid = true → s.adjusted = t.adjusted ∧ s.mem.adjLen = t.mem.adjLen) : SameOutputs s t := by
  have hrv : s.recValid = t.recValid := by rw [State.recValid, State.recValid, hdone, hstatus]
  have hav : s.adjValid = t.adjValid := by rw [State.adjValid, State.adjValid, hdone, hstatus]
  refine ⟨fun o => ?read, fun i => ?readAdj⟩
  case readAdj =>
    rw [hostReadAdj, hostReadAdj, ← hav]
    split
    next hv => rw [(hadj hv).1]
    next => rfl
  case read =>
    cases o with
    | done => simp only [hostRead, hdone]
    | status => simp only [hostRead, hdone, hstatus]
    | recValid => simp only [hostRead, hrv]
    | syncword => rfl
    | adjLen =>
      rw [hostRead, hostRead, ← hav]
      split
      next hv => rw [(hadj hv).2]
      next => rfl
    | _ =>
      simp only [hostRead, ifRecord, ← hrv]
      split
      next hv =>
        obtain ⟨h1, h2, h3⟩ := hrecord hv
        simp only [h1, h2, h3]
      next => rfl

/-- The priority of R215 gives every adjusted string one end. -/
theorem EndsTransaction.status_eq {x : Option (List DecSymbol)} {s t s' t' : State}
    (hs : EndsTransaction x s s') (ht : EndsTransaction x t t') : s'.status = t'.status := by
  obtain ⟨-, -, -, -, -, -, -, -, -, hs⟩ := hs
  obtain ⟨-, -, -, -, -, -, -, -, -, ht⟩ := ht
  cases x with
  | none => exact hs.trans ht.symm
  | some a =>
    obtain ⟨-, -, hshort, hbad, hok⟩ := hs
    obtain ⟨-, -, hshort', hbad', hok'⟩ := ht
    by_cases hlen : a.length < 41
    · exact (hshort hlen).trans (hshort' hlen).symm
    · have hlen : 41 ≤ a.length := by omega
      by_cases ho : .other ∈ a.take 41
      · exact (hbad hlen ho).trans (hbad' hlen ho).symm
      · exact (hok hlen ho).1.trans (hok' hlen ho).1.symm

/-- Two transactions on one adjusted string, or on none, show the host the same. -/
theorem EndsTransaction.sameOutputs {x : Option (List DecSymbol)} {s t s' t' : State}
    (hs : EndsTransaction x s s') (ht : EndsTransaction x t t') : SameOutputs s' t' := by
  have hadj : s'.status ≠ .resyncFailed → t'.status ≠ .resyncFailed →
      s'.adjusted = t'.adjusted ∧ s'.mem.adjLen = t'.mem.adjLen := by
    intro h h'
    obtain ⟨a, ha, hadj, hlen⟩ := hs.adjusted_of_status_ne h
    obtain ⟨a', ha', hadj', hlen'⟩ := ht.adjusted_of_status_ne h'
    obtain rfl : a = a' := Option.some.inj (ha.symm.trans ha')
    exact ⟨hadj.trans hadj'.symm, hlen.trans hlen'.symm⟩
  have hstatus : s'.status = t'.status := hs.status_eq ht
  refine sameOutputs_of_eq (hs.1.trans ht.1.symm) hstatus (fun hv => ?record) (fun hv => ?adj)
  case adj =>
    have hne := ((adjValid_iff s').1 hv).2
    exact hadj hne (hstatus ▸ hne)
  case record =>
    have hok := ((recValid_iff s').1 hv).2
    have hok' : t'.status = .ok := hstatus ▸ hok
    obtain ⟨-, hr, hc, hcl⟩ := hs.recordAgrees hok
    obtain ⟨-, hr', hc', hcl'⟩ := ht.recordAgrees hok'
    obtain ⟨ha, -⟩ := hadj (by simp [hok]) (by simp [hok'])
    have hrec : s'.record = t'.record := by rw [hr, hr', ha]
    have hcrc : s'.crc = t'.crc := by rw [hc, hc', ha]
    exact ⟨hrec, hcrc, by rw [hcl, hcl', hrec, hcrc]⟩

/-- The outputs after a transaction do not depend on what the block held before. -/
theorem sameOutputs_transaction {s t : State} (hu : s.params.hasResync = t.params.hasResync) (raw : List Byte) :
    SameOutputs (s.transaction raw) (t.transaction raw) := by
  obtain ⟨x, hs, hunit, hnoUnit⟩ := endsTransaction_transaction s raw
  obtain ⟨y, ht, hunit', hnoUnit'⟩ := endsTransaction_transaction t raw
  have hxy : x = y := by
    cases h : s.params.hasResync with
    | true => exact (hunit h).trans (hunit' (hu ▸ h)).symm
    | false => exact (hnoUnit h).trans (hnoUnit' (hu ▸ h)).symm
  subst hxy
  exact hs.sameOutputs ht

/-- Settles O44: both are one whole transaction on the same string. -/
theorem transactionDependsOnItsInputOnly : Obligations.TransactionDependsOnItsInputOnly := by
  intro s t hparams hlat hsp htp hsw htw hraw
  refine ⟨_, _, exec_start_of_no_delay hsw hsp hlat, exec_start_of_no_delay htw htp (hparams ▸ hlat),
    (transaction_done_window s _).1, ?_⟩
  rw [← hraw]
  exact sameOutputs_transaction (congrArg Params.hasResync hparams) _

/-! ### A transaction with a delay (R196, R219) -/

/-- A transaction on `raw` is in progress, `n` steps before the step that ends it, and the host keeps the string. -/
structure InTransaction (raw : List Byte) (n : Nat) (s : State) : Prop where
  rst : s.rst = false
  start : s.start = false
  window : s.window = some { sampled := raw, left := n }
  presentable : s.presentable = true
  rawString : s.rawString = raw
  not_done : s.done = false

section Delay

variable {raw : List Byte} {s : State}

theorem InTransaction.tick_condition {n : Nat} (h : InTransaction raw n s) :
    (s.presentable && s.rawString == raw) = true := by
  simp [h.presentable, h.rawString]

theorem InTransaction.step_last (h : InTransaction raw 0 s) : step s = .next (s.transaction raw) :=
  (step_of_window h.rst h.start h.window).trans (if_pos h.tick_condition)

theorem InTransaction.step_wait {n : Nat} (h : InTransaction raw (n + 1) s) :
    step s = .next (s.wait { sampled := raw, left := n }) :=
  (step_of_window h.rst h.start h.window).trans (if_pos h.tick_condition)

theorem InTransaction.wait {n : Nat} (h : InTransaction raw (n + 1) s) :
    InTransaction raw n (s.wait { sampled := raw, left := n }) where
  rst := h.rst
  start := h.start
  window := rfl
  presentable := h.presentable
  rawString := h.rawString
  not_done := h.not_done

theorem inTransaction_openWindow (hrst : s.rst = false) (hstart : s.start = false) (hp : s.presentable = true)
    (n : Nat) : InTransaction s.rawString n (s.openWindow s.rawString n) where
  rst := hrst
  start := hstart
  window := rfl
  presentable := hp
  rawString := rfl
  not_done := rfl

/-- The steps of a transaction in progress: `DONE` stays 0 for `n` of them, and the next one ends the transaction in
a state with the same parameters. -/
theorem InTransaction.run {n : Nat} (h : InTransaction raw n s) :
    (∃ u : State, u.params = s.params ∧ runSteps (n + 1) s = .next (u.transaction raw)) ∧
      ∀ k, k ≤ n → ∃ v, runSteps k s = .next v ∧ v.done = false := by
  induction n generalizing s with
  | zero =>
    refine ⟨⟨s, rfl, Laws.runSteps_next 0 h.step_last⟩, fun k hk => ?_⟩
    obtain rfl : k = 0 := by omega
    exact ⟨s, rfl, h.not_done⟩
  | succ n ih =>
    obtain ⟨⟨u, hu, hrun⟩, hwait⟩ := ih h.wait
    refine ⟨⟨u, hu, (Laws.runSteps_next _ h.step_wait).trans hrun⟩, fun k hk => ?_⟩
    cases k with
    | zero => exact ⟨s, rfl, h.not_done⟩
    | succ k =>
      rw [Laws.runSteps_next _ h.step_wait]
      exact hwait k (by omega)

end Delay

/-- The same block with `LAT = 0`. -/
def State.withoutDelay (s : State) : State := { s with params := { s.params with lat := some 0 } }

/-- Settles O45: `n` is the delay; the first step ends the transaction or opens it, and `InTransaction.run` follows
it to its end. -/
theorem everyTransactionEndsWithTheSameOutputs : Obligations.EveryTransactionEndsWithTheSameOutputs := by
  intro s hrst hw hp
  have hnow : exec .start s.withoutDelay = .next (s.withoutDelay.transaction s.rawString) :=
    exec_start_of_no_delay (s := s.withoutDelay) hw hp rfl
  have hsame : ∀ u : State, u.params = s.params →
      SameOutputs (u.transaction s.rawString) (s.withoutDelay.transaction s.rawString) :=
    fun u hu => sameOutputs_transaction (by rw [hu]; rfl) _
  have hstep : step s.assertStart = exec .start s.assertStart.releasePins :=
    step_of_decodePins (decodePins_of_start hrst rfl)
  have hlat : ∀ m, s.params.lat = some m → s.delay = m := fun m hm => by simp [State.delay, hm]
  cases hd : s.delay with
  | zero =>
    have hfirst := hstep.trans (exec_start_of_delay_zero (s := s.assertStart.releasePins) hw hp hd)
    refine ⟨0, _, _, fun m hm => hd.symm.trans (hlat m hm), Laws.runSteps_next 0 hfirst,
      (transaction_done_window _ _).1, fun k h0 hk => by omega, hnow, hsame _ rfl⟩
  | succ n =>
    have hfirst := hstep.trans (exec_start_of_delay_succ (s := s.assertStart.releasePins) hw hp hd)
    have hopen := inTransaction_openWindow (s := s.assertStart.releasePins) rfl rfl hp n
    obtain ⟨⟨u, hu, hrun⟩, hwait⟩ := hopen.run
    refine ⟨n + 1, _, _, fun m hm => hd.symm.trans (hlat m hm), (Laws.runSteps_next _ hfirst).trans hrun,
      (transaction_done_window _ _).1, fun k h0 hk => ?_, hnow, hsame u hu⟩
    obtain ⟨k, rfl⟩ : ∃ j, k = j + 1 := ⟨k - 1, by omega⟩
    rw [Laws.runSteps_next _ hfirst]
    exact hwait k (by omega)

end Sys2Proof.Machine
end

section
/-! The words of the operation table (30_encoding.md section 5, log entry 1): which request a bare word stands for,
and that the request put where the step fetches it runs as the operation it decodes to. -/

namespace Sys2Proof.Machine

/-! ### A placed request runs (R201) -/

/-- START and RESET are placed on the pins, every other operation on the bench. -/
theorem step_placeRequest {s : State} {bs : List Byte} {i : Instr} (h : decode bs = .ok i) :
    ∃ bench, step (s.placeRequest bs) =
      exec i { s with rst := false, start := false, window := none, bench := bench } := by
  cases i with
  | start =>
    have hplace : s.placeRequest bs = { s with rst := false, start := true, window := none } := by
      simp only [State.placeRequest, h]
    refine ⟨s.bench, ?_⟩
    rw [hplace]
    exact step_of_decodePins (decodePins_of_start rfl rfl)
  | reset p =>
    have hplace : s.placeRequest bs = { s with rst := true, start := p.getLsbD 0, window := none } := by
      simp only [State.placeRequest, h]
    refine ⟨s.bench, ?_⟩
    rw [hplace]
    exact step_of_rst rfl
  | _ =>
    have hplace : s.placeRequest bs = { s with rst := false, start := false, window := none, bench := bs } := by
      simp only [State.placeRequest, h]
    refine ⟨[], ?_⟩
    rw [hplace]
    exact step_of_bench rfl rfl rfl h

theorem decodeTableWord_eq_some {nbits w : Nat} {i : Instr} (h : decodeTableWord nbits w = some i) :
    ∃ bs, tableRequest nbits w = some bs ∧ decode bs = .ok i := by
  unfold decodeTableWord at h
  split at h
  next bs hbs =>
    cases hd : decode bs with
    | ok j =>
      rw [hd] at h
      cases h
      exact ⟨bs, hbs, hd⟩
    | error r =>
      rw [hd] at h
      cases h
  next => cases h

theorem decodeTableWord_of_request {nbits w : Nat} {i : Instr} (h : tableRequest nbits w = some (encode i))
    (hw : i.wellFormed = true) : decodeTableWord nbits w = some i := by
  simp only [decodeTableWord, h, decodeOfEncodeIsTheOperation i hw, Except.toOption]

/-- A word that is read as an operation runs as that operation. -/
theorem step_withFetchWord {s : State} {nbits w : Nat} {i : Instr} (h : decodeTableWord nbits w = some i) :
    ∃ bench, step (s.withFetchWord nbits w) =
      exec i { s with rst := false, start := false, window := none, bench := bench } := by
  obtain ⟨bs, hbs, hdecode⟩ := decodeTableWord_eq_some h
  have hplace : s.withFetchWord nbits w = s.placeRequest bs := by
    rw [State.withFetchWord, State.placeTableWord, hbs, Option.getD_some]
  rw [hplace]
  exact step_placeRequest hdecode

/-! ### Words without a fixed pattern, by their width -/

theorem tableRequest_byte {c : Byte} (hc : c ∉ [0x01, 0x02, 0x03, 0x05, 0x55, 0xAA]) :
    tableRequest 8 c.toNat = some (encode (.hexdec c)) := by
  revert c
  decide +kernel

theorem tableRequest_word16 {r : BitVec 16} (hr : r ≠ 0x3475) :
    tableRequest 16 r.toNat = some (encode (.scale16 r)) := by
  have hne : r.toNat ≠ 0x3475 := fun h => hr (BitVec.eq_of_toNat_eq h)
  rw [tableRequest, if_neg r.isLt.not_ge, if_neg (by decide), if_pos rfl, if_neg hne, BitVec.ofNat_toNat,
    BitVec.setWidth_eq]
  rfl

theorem tableRequest_word24 (r : BitVec 24) : tableRequest 24 r.toNat = some (encode (.scale24 r)) := by
  rw [tableRequest, if_neg r.isLt.not_ge, if_neg (by decide), if_neg (by decide), if_pos rfl, BitVec.ofNat_toNat,
    BitVec.setWidth_eq]
  rfl

theorem tableRequest_word32 (a r : BitVec 16) :
    tableRequest 32 (a ++ r).toNat = some (encode (.classify a r)) := by
  rw [tableRequest, if_neg (a ++ r).isLt.not_ge, if_neg (by decide), if_neg (by decide), if_neg (by decide),
    if_pos rfl, BitVec.ofNat_toNat, BitVec.setWidth_eq]
  rfl

/-- A frame word is anchored or stands for no operation; a number of more than 168 bits is not anchored. -/
theorem decodeTableWord_frame (w : Nat) :
    decodeTableWord 168 w = if w / 2 ^ 148 = 0x3475 then some .decode else none := by
  have hrequest : tableRequest 168 w = if w / 2 ^ 148 = 0x3475 then some (encode .decode) else none := by
    by_cases hfit : 2 ^ 168 ≤ w
    · rw [tableRequest, if_pos hfit, if_neg (by omega)]
    · rw [tableRequest, if_neg hfit, if_neg (by decide), if_neg (by decide), if_neg (by decide), if_neg (by decide),
        if_pos rfl]
      rfl
  by_cases hanchor : w / 2 ^ 148 = 0x3475
  · rw [if_pos hanchor] at hrequest ⊢
    exact decodeTableWord_of_request hrequest rfl
  · rw [if_neg hanchor] at hrequest ⊢
    simp only [decodeTableWord, hrequest]

/-- Settles O5: the fixed patterns and the widths are read as requests, and each request is an encoding; a word that
is read runs by `step_placeRequest`. -/
theorem tableWordRunsAsTheNextStep : Obligations.TableWordRunsAsTheNextStep := by
  refine ⟨fun s nbits w i => step_withFetchWord, ?sync, ?fives, ?tens, ?five, ?start, ?reset0, ?reset1,
    decodeTableWord_frame,
    fun c hc => decodeTableWord_of_request (tableRequest_byte hc) rfl,
    fun r hr => decodeTableWord_of_request (tableRequest_word16 hr) rfl,
    fun r => decodeTableWord_of_request (tableRequest_word24 r) rfl,
    fun a r => decodeTableWord_of_request (tableRequest_word32 a r) rfl⟩
  all_goals exact decodeTableWord_of_request rfl rfl

end Sys2Proof.Machine
end
